-- ==== Sys2Proof/Word.lean ====
section
/-! DEFINITION. The machine's two word types (00_scope.md R5: a byte is 8 bits, a word is 16 bits). -/

namespace Sys2Proof

/-- A byte: 8 bits, the unit of memory and the width of every data register (00_scope.md R4, R5). -/
abbrev Byte := BitVec 8

/-- A word: 16 bits, the width of the program counter and of an address (00_scope.md R4, R5). -/
abbrev Word := BitVec 16

end Sys2Proof
end

