-- ==== Sys2Proof/Syntax.lean ====
section
/-! DEFINITION. The instructions: one constructor per (mnemonic, rule) of the opcode table, the table's rows of one
mnemonic being the operand forms its constructor takes (log 19). Operand bytes are kept as fetched. -/

namespace Sys2Proof

/-- The thirteen addressing modes (41_addressing_modes.md R100). -/
inductive Mode where
  | implied | accumulator | immediate | relative
  | zeropage | zeropageX | zeropageY
  | absolute | absoluteX | absoluteY
  | absoluteIndirect | indexedIndirect | indirectIndexed
deriving DecidableEq, Repr

/-- How many operand bytes follow the opcode in each mode (41_addressing_modes.md R100, 30_encoding.md R60). -/
def Mode.operandCount : Mode → Nat
  | .implied | .accumulator => 0
  | .immediate | .relative | .zeropage | .zeropageX | .zeropageY | .indexedIndirect | .indirectIndexed => 1
  | .absolute | .absoluteX | .absoluteY | .absoluteIndirect => 2

/-- An operand in memory that `Load` and `Store` reach, with its operand bytes (41_addressing_modes.md R105 to
R110, R112, R113). -/
inductive MemMode where
  | zeropage (op1 : Byte)
  | zeropageX (op1 : Byte)
  | zeropageY (op1 : Byte)
  | absolute (op1 op2 : Byte)
  | absoluteX (op1 op2 : Byte)
  | absoluteY (op1 op2 : Byte)
  | indexedIndirect (op1 : Byte)
  | indirectIndexed (op1 : Byte)
deriving DecidableEq, Repr

/-- An operand that can be loaded: the operand byte itself or a memory byte (41_addressing_modes.md R101, R104). -/
inductive LoadMode where
  | immediate (op1 : Byte)
  | mem (m : MemMode)
deriving DecidableEq, Repr

/-- The operand of a shift or rotate: A or a memory byte (41_addressing_modes.md R103, R116). -/
inductive RmwMode where
  | accumulator
  | mem (m : MemMode)
deriving DecidableEq, Repr

/-- The mode of a memory operand. -/
def MemMode.mode : MemMode → Mode
  | .zeropage _ => .zeropage
  | .zeropageX _ => .zeropageX
  | .zeropageY _ => .zeropageY
  | .absolute _ _ => .absolute
  | .absoluteX _ _ => .absoluteX
  | .absoluteY _ _ => .absoluteY
  | .indexedIndirect _ => .indexedIndirect
  | .indirectIndexed _ => .indirectIndexed

/-- The mode of a loadable operand. -/
def LoadMode.mode : LoadMode → Mode
  | .immediate _ => .immediate
  | .mem m => m.mode

/-- The mode of a shift's operand. -/
def RmwMode.mode : RmwMode → Mode
  | .accumulator => .accumulator
  | .mem m => m.mode

/-- The operand bytes of a memory operand, in the order they follow the opcode (30_encoding.md R60). -/
def MemMode.bytes : MemMode → List Byte
  | .zeropage op1 => [op1]
  | .zeropageX op1 => [op1]
  | .zeropageY op1 => [op1]
  | .absolute op1 op2 => [op1, op2]
  | .absoluteX op1 op2 => [op1, op2]
  | .absoluteY op1 op2 => [op1, op2]
  | .indexedIndirect op1 => [op1]
  | .indirectIndexed op1 => [op1]

/-- The operand bytes of a loadable operand. -/
def LoadMode.bytes : LoadMode → List Byte
  | .immediate op1 => [op1]
  | .mem m => m.bytes

/-- The operand bytes of a shift's operand. -/
def RmwMode.bytes : RmwMode → List Byte
  | .accumulator => []
  | .mem m => m.bytes

/-- The instruction set. `slot` is the opcode byte itself, kept where several rows of the table have the same
mnemonic and the same mode (ANC, DOP, TOP, the absent slots). -/
inductive Instr where
  -- 42_load_store_transfer.md
  | lda (m : LoadMode)
  | ldx (m : LoadMode)
  | ldy (m : LoadMode)
  | sta (m : MemMode)
  | stx (m : MemMode)
  | sty (m : MemMode)
  | tax
  | tay
  | txa
  | tya
  | tsx
  | txs
  -- 43_arithmetic.md
  | adc (m : LoadMode)
  | sbc (m : LoadMode)
  | cmp (m : LoadMode)
  | cpx (m : LoadMode)
  | cpy (m : LoadMode)
  | inc (m : MemMode)
  | dec (m : MemMode)
  | inx
  | iny
  | dex
  | dey
  -- 44_logic_shift.md
  | and (m : LoadMode)
  | ora (m : LoadMode)
  | eor (m : LoadMode)
  | bit (m : MemMode)
  | asl (m : RmwMode)
  | lsr (m : RmwMode)
  | rol (m : RmwMode)
  | ror (m : RmwMode)
  -- 45_control_flow.md
  | bcc (op1 : Byte)
  | bcs (op1 : Byte)
  | beq (op1 : Byte)
  | bne (op1 : Byte)
  | bmi (op1 : Byte)
  | bpl (op1 : Byte)
  | bvc (op1 : Byte)
  | bvs (op1 : Byte)
  | jmp (op1 op2 : Byte)
  | jmpIndirect (op1 op2 : Byte)
  | jsr (op1 op2 : Byte)
  | rts
  -- 46_stack_flags_system.md
  | pha
  | php
  | pla
  | plp
  | clc
  | sec
  | cli
  | sei
  | cld
  | sed
  | clv
  | nop
  | brk
  | rti
  -- 47_undocumented.md
  | slo (m : MemMode)
  | rla (m : MemMode)
  | sre (m : MemMode)
  | rra (m : MemMode)
  | dcp (m : MemMode)
  | isc (m : MemMode)
  | lax (m : MemMode)
  | sax (m : MemMode)
  | anc (slot op1 : Byte)
  | alr (op1 : Byte)
  | arr (op1 : Byte)
  | xaa (op1 : Byte)
  | sbcAlias (op1 : Byte)
  | dop (slot op1 : Byte)
  | top (slot op1 op2 : Byte)
  -- 60_exceptions.md R272: a byte of an absent slot, whose fetch is the fault UnknownOpcode
  | absent (slot : Byte)
deriving DecidableEq, Repr

/-- The operand bytes of an instruction, in the order they follow the opcode byte (30_encoding.md R60, R62). -/
def Instr.operandBytes : Instr → List Byte
  | .lda m | .ldx m | .ldy m | .adc m | .sbc m | .cmp m | .cpx m | .cpy m | .and m | .ora m | .eor m => m.bytes
  | .sta m | .stx m | .sty m | .inc m | .dec m | .bit m => m.bytes
  | .slo m | .rla m | .sre m | .rra m | .dcp m | .isc m | .lax m | .sax m => m.bytes
  | .asl m | .lsr m | .rol m | .ror m => m.bytes
  | .bcc op1 | .bcs op1 | .beq op1 | .bne op1 | .bmi op1 | .bpl op1 | .bvc op1 | .bvs op1 => [op1]
  | .jmp op1 op2 | .jmpIndirect op1 op2 | .jsr op1 op2 => [op1, op2]
  | .tax | .tay | .txa | .tya | .tsx | .txs | .inx | .iny | .dex | .dey => []
  | .rts | .pha | .php | .pla | .plp | .clc | .sec | .cli | .sei | .cld | .sed | .clv | .nop | .brk | .rti => []
  | .anc _ op1 | .alr op1 | .arr op1 | .xaa op1 | .sbcAlias op1 | .dop _ op1 => [op1]
  | .top _ op1 op2 => [op1, op2]
  | .absent _ => []

/-- The length of an instruction in bytes: the opcode byte and its operand bytes (30_encoding.md R60). -/
def Instr.length (i : Instr) : Nat := 1 + i.operandBytes.length

/-- Whether this stands for a byte of an absent slot (30_encoding.md R66). -/
def Instr.isAbsent : Instr → Bool
  | .absent _ => true
  | .lda _ | .ldx _ | .ldy _ | .sta _ | .stx _ | .sty _ | .tax | .tay | .txa | .tya | .tsx | .txs => false
  | .adc _ | .sbc _ | .cmp _ | .cpx _ | .cpy _ | .inc _ | .dec _ | .inx | .iny | .dex | .dey => false
  | .and _ | .ora _ | .eor _ | .bit _ | .asl _ | .lsr _ | .rol _ | .ror _ => false
  | .bcc _ | .bcs _ | .beq _ | .bne _ | .bmi _ | .bpl _ | .bvc _ | .bvs _ => false
  | .jmp _ _ | .jmpIndirect _ _ | .jsr _ _ | .rts => false
  | .pha | .php | .pla | .plp | .clc | .sec | .cli | .sei | .cld | .sed | .clv | .nop | .brk | .rti => false
  | .slo _ | .rla _ | .sre _ | .rra _ | .dcp _ | .isc _ | .lax _ | .sax _ => false
  | .anc _ _ | .alr _ | .arr _ | .xaa _ | .sbcAlias _ | .dop _ _ | .top _ _ _ => false

end Sys2Proof
end

