-- ==== Sys2Proof/WellFormed.lean ====
section
/-! DEFINITION. Which forms exist: each instruction's own *Operands* line (files 42_ to 47_), one check per
instruction. An empty cell of 30_encoding.md R64 is a form no opcode selects. -/

namespace Sys2Proof

/-- The eight addressing modes ADC, AND, CMP, EOR, LDA, ORA, SBC have (43_arithmetic.md R153; 44_logic_shift.md R180). -/
def accumulatorModes : List Mode :=
  [.immediate, .zeropage, .zeropageX, .absolute, .absoluteX, .absoluteY, .indexedIndirect, .indirectIndexed]

/-- The seven modes of the undocumented read-modify-write combinations (47_undocumented.md R241 to R246). -/
def comboModes : List Mode :=
  [.zeropage, .zeropageX, .absolute, .absoluteX, .absoluteY, .indexedIndirect, .indirectIndexed]

/-- The five modes of the shifts and rotates (44_logic_shift.md R185). -/
def shiftModes : List Mode := [.accumulator, .zeropage, .zeropageX, .absolute, .absoluteX]

/-- The two slots of ANC (47_undocumented.md R249). -/
def ancSlots : List Byte := [0x0B, 0x2B]

/-- The fourteen slots of DOP: Immediate, Zeropage, Zeropage,X (47_undocumented.md R254). -/
def dopSlots : List Byte :=
  [0x80, 0x82, 0x89, 0xC2, 0xE2] ++ [0x04, 0x44, 0x64] ++ [0x14, 0x34, 0x54, 0x74, 0xD4, 0xF4]

/-- The seven slots of TOP: Absolute, Absolute,X (47_undocumented.md R255). -/
def topSlots : List Byte := [0x0C] ++ [0x1C, 0x3C, 0x5C, 0x7C, 0xDC, 0xFC]

/-- The 26 absent slots (30_encoding.md R66). -/
def absentSlots : List Byte :=
  [0x02, 0x12, 0x22, 0x32, 0x42, 0x52, 0x62, 0x72, 0x92, 0xB2, 0xD2, 0xF2] ++
  [0x1A, 0x3A, 0x5A, 0x7A, 0xDA, 0xFA] ++ [0x93, 0x9F, 0x9B, 0x9C, 0x9E, 0xAB, 0xBB, 0xCB]

/-- Whether the spec gives this form an opcode. -/
def Instr.wellFormed : Instr → Bool
  | .lda m => accumulatorModes.contains m.mode
  | .ldx m => [Mode.immediate, .zeropage, .zeropageY, .absolute, .absoluteY].contains m.mode
  | .ldy m => [Mode.immediate, .zeropage, .zeropageX, .absolute, .absoluteX].contains m.mode
  | .sta m => [Mode.zeropage, .zeropageX, .absolute, .absoluteX, .absoluteY, .indexedIndirect, .indirectIndexed].contains m.mode
  | .stx m => [Mode.zeropage, .zeropageY, .absolute].contains m.mode
  | .sty m => [Mode.zeropage, .zeropageX, .absolute].contains m.mode
  | .tax | .tay | .txa | .tya | .tsx | .txs => true
  | .adc m => accumulatorModes.contains m.mode
  | .sbc m => accumulatorModes.contains m.mode
  | .cmp m => accumulatorModes.contains m.mode
  | .cpx m => [Mode.immediate, .zeropage, .absolute].contains m.mode
  | .cpy m => [Mode.immediate, .zeropage, .absolute].contains m.mode
  | .inc m => [Mode.zeropage, .zeropageX, .absolute, .absoluteX].contains m.mode
  | .dec m => [Mode.zeropage, .zeropageX, .absolute, .absoluteX].contains m.mode
  | .inx | .iny | .dex | .dey => true
  | .and m => accumulatorModes.contains m.mode
  | .ora m => accumulatorModes.contains m.mode
  | .eor m => accumulatorModes.contains m.mode
  | .bit m => [Mode.zeropage, .absolute].contains m.mode
  | .asl m => shiftModes.contains m.mode
  | .lsr m => shiftModes.contains m.mode
  | .rol m => shiftModes.contains m.mode
  | .ror m => shiftModes.contains m.mode
  | .bcc _ | .bcs _ | .beq _ | .bne _ | .bmi _ | .bpl _ | .bvc _ | .bvs _ => true
  | .jmp _ _ | .jmpIndirect _ _ | .jsr _ _ | .rts => true
  | .pha | .php | .pla | .plp => true
  | .clc | .sec | .cli | .sei | .cld | .sed | .clv | .nop | .brk | .rti => true
  | .slo m => comboModes.contains m.mode
  | .rla m => comboModes.contains m.mode
  | .sre m => comboModes.contains m.mode
  | .rra m => comboModes.contains m.mode
  | .dcp m => comboModes.contains m.mode
  | .isc m => comboModes.contains m.mode
  | .lax m => [Mode.zeropage, .zeropageY, .absolute, .absoluteY, .indexedIndirect, .indirectIndexed].contains m.mode
  | .sax m => [Mode.zeropage, .zeropageY, .absolute, .indexedIndirect].contains m.mode
  | .anc slot _ => ancSlots.contains slot
  | .alr _ | .arr _ | .xaa _ | .sbcAlias _ => true
  | .dop slot _ => dopSlots.contains slot
  | .top slot _ _ => topSlots.contains slot
  | .absent slot => absentSlots.contains slot

end Sys2Proof
end

