-- ==== Sys2Proof/Decode.lean ====
section
/-! DEFINITION. The opcode map, byte by byte (30_encoding.md R63 and opcode_table.json), the decoder over it, and the
encoder, written from the same spec's table by mnemonic (30_encoding.md R64). -/

namespace Sys2Proof

/-- Slots 0x00 to 0x0F (30_encoding.md R63). -/
def slots0 (l h : Byte) : List Instr :=
  [
    .brk, .ora (.mem (.indexedIndirect l)), .absent 0x02, .slo (.indexedIndirect l),
    .dop 0x04 l, .ora (.mem (.zeropage l)), .asl (.mem (.zeropage l)), .slo (.zeropage l),
    .php, .ora (.immediate l), .asl .accumulator, .anc 0x0B l,
    .top 0x0C l h, .ora (.mem (.absolute l h)), .asl (.mem (.absolute l h)), .slo (.absolute l h)
  ]

/-- Slots 0x10 to 0x1F (30_encoding.md R63). -/
def slots1 (l h : Byte) : List Instr :=
  [
    .bpl l, .ora (.mem (.indirectIndexed l)), .absent 0x12, .slo (.indirectIndexed l),
    .dop 0x14 l, .ora (.mem (.zeropageX l)), .asl (.mem (.zeropageX l)), .slo (.zeropageX l),
    .clc, .ora (.mem (.absoluteY l h)), .absent 0x1A, .slo (.absoluteY l h),
    .top 0x1C l h, .ora (.mem (.absoluteX l h)), .asl (.mem (.absoluteX l h)), .slo (.absoluteX l h)
  ]

/-- Slots 0x20 to 0x2F (30_encoding.md R63). -/
def slots2 (l h : Byte) : List Instr :=
  [
    .jsr l h, .and (.mem (.indexedIndirect l)), .absent 0x22, .rla (.indexedIndirect l),
    .bit (.zeropage l), .and (.mem (.zeropage l)), .rol (.mem (.zeropage l)), .rla (.zeropage l),
    .plp, .and (.immediate l), .rol .accumulator, .anc 0x2B l,
    .bit (.absolute l h), .and (.mem (.absolute l h)), .rol (.mem (.absolute l h)), .rla (.absolute l h)
  ]

/-- Slots 0x30 to 0x3F (30_encoding.md R63). -/
def slots3 (l h : Byte) : List Instr :=
  [
    .bmi l, .and (.mem (.indirectIndexed l)), .absent 0x32, .rla (.indirectIndexed l),
    .dop 0x34 l, .and (.mem (.zeropageX l)), .rol (.mem (.zeropageX l)), .rla (.zeropageX l),
    .sec, .and (.mem (.absoluteY l h)), .absent 0x3A, .rla (.absoluteY l h),
    .top 0x3C l h, .and (.mem (.absoluteX l h)), .rol (.mem (.absoluteX l h)), .rla (.absoluteX l h)
  ]

/-- Slots 0x40 to 0x4F (30_encoding.md R63). -/
def slots4 (l h : Byte) : List Instr :=
  [
    .rti, .eor (.mem (.indexedIndirect l)), .absent 0x42, .sre (.indexedIndirect l),
    .dop 0x44 l, .eor (.mem (.zeropage l)), .lsr (.mem (.zeropage l)), .sre (.zeropage l),
    .pha, .eor (.immediate l), .lsr .accumulator, .alr l,
    .jmp l h, .eor (.mem (.absolute l h)), .lsr (.mem (.absolute l h)), .sre (.absolute l h)
  ]

/-- Slots 0x50 to 0x5F (30_encoding.md R63). -/
def slots5 (l h : Byte) : List Instr :=
  [
    .bvc l, .eor (.mem (.indirectIndexed l)), .absent 0x52, .sre (.indirectIndexed l),
    .dop 0x54 l, .eor (.mem (.zeropageX l)), .lsr (.mem (.zeropageX l)), .sre (.zeropageX l),
    .cli, .eor (.mem (.absoluteY l h)), .absent 0x5A, .sre (.absoluteY l h),
    .top 0x5C l h, .eor (.mem (.absoluteX l h)), .lsr (.mem (.absoluteX l h)), .sre (.absoluteX l h)
  ]

/-- Slots 0x60 to 0x6F (30_encoding.md R63). -/
def slots6 (l h : Byte) : List Instr :=
  [
    .rts, .adc (.mem (.indexedIndirect l)), .absent 0x62, .rra (.indexedIndirect l),
    .dop 0x64 l, .adc (.mem (.zeropage l)), .ror (.mem (.zeropage l)), .rra (.zeropage l),
    .pla, .adc (.immediate l), .ror .accumulator, .arr l,
    .jmpIndirect l h, .adc (.mem (.absolute l h)), .ror (.mem (.absolute l h)), .rra (.absolute l h)
  ]

/-- Slots 0x70 to 0x7F (30_encoding.md R63). -/
def slots7 (l h : Byte) : List Instr :=
  [
    .bvs l, .adc (.mem (.indirectIndexed l)), .absent 0x72, .rra (.indirectIndexed l),
    .dop 0x74 l, .adc (.mem (.zeropageX l)), .ror (.mem (.zeropageX l)), .rra (.zeropageX l),
    .sei, .adc (.mem (.absoluteY l h)), .absent 0x7A, .rra (.absoluteY l h),
    .top 0x7C l h, .adc (.mem (.absoluteX l h)), .ror (.mem (.absoluteX l h)), .rra (.absoluteX l h)
  ]

/-- Slots 0x80 to 0x8F (30_encoding.md R63). -/
def slots8 (l h : Byte) : List Instr :=
  [
    .dop 0x80 l, .sta (.indexedIndirect l), .dop 0x82 l, .sax (.indexedIndirect l),
    .sty (.zeropage l), .sta (.zeropage l), .stx (.zeropage l), .sax (.zeropage l),
    .dey, .dop 0x89 l, .txa, .xaa l,
    .sty (.absolute l h), .sta (.absolute l h), .stx (.absolute l h), .sax (.absolute l h)
  ]

/-- Slots 0x90 to 0x9F (30_encoding.md R63). -/
def slots9 (l h : Byte) : List Instr :=
  [
    .bcc l, .sta (.indirectIndexed l), .absent 0x92, .absent 0x93,
    .sty (.zeropageX l), .sta (.zeropageX l), .stx (.zeropageY l), .sax (.zeropageY l),
    .tya, .sta (.absoluteY l h), .txs, .absent 0x9B,
    .absent 0x9C, .sta (.absoluteX l h), .absent 0x9E, .absent 0x9F
  ]

/-- Slots 0xA0 to 0xAF (30_encoding.md R63). -/
def slotsA (l h : Byte) : List Instr :=
  [
    .ldy (.immediate l), .lda (.mem (.indexedIndirect l)), .ldx (.immediate l), .lax (.indexedIndirect l),
    .ldy (.mem (.zeropage l)), .lda (.mem (.zeropage l)), .ldx (.mem (.zeropage l)), .lax (.zeropage l),
    .tay, .lda (.immediate l), .tax, .absent 0xAB,
    .ldy (.mem (.absolute l h)), .lda (.mem (.absolute l h)), .ldx (.mem (.absolute l h)), .lax (.absolute l h)
  ]

/-- Slots 0xB0 to 0xBF (30_encoding.md R63). -/
def slotsB (l h : Byte) : List Instr :=
  [
    .bcs l, .lda (.mem (.indirectIndexed l)), .absent 0xB2, .lax (.indirectIndexed l),
    .ldy (.mem (.zeropageX l)), .lda (.mem (.zeropageX l)), .ldx (.mem (.zeropageY l)), .lax (.zeropageY l),
    .clv, .lda (.mem (.absoluteY l h)), .tsx, .absent 0xBB,
    .ldy (.mem (.absoluteX l h)), .lda (.mem (.absoluteX l h)), .ldx (.mem (.absoluteY l h)), .lax (.absoluteY l h)
  ]

/-- Slots 0xC0 to 0xCF (30_encoding.md R63). -/
def slotsC (l h : Byte) : List Instr :=
  [
    .cpy (.immediate l), .cmp (.mem (.indexedIndirect l)), .dop 0xC2 l, .dcp (.indexedIndirect l),
    .cpy (.mem (.zeropage l)), .cmp (.mem (.zeropage l)), .dec (.zeropage l), .dcp (.zeropage l),
    .iny, .cmp (.immediate l), .dex, .absent 0xCB,
    .cpy (.mem (.absolute l h)), .cmp (.mem (.absolute l h)), .dec (.absolute l h), .dcp (.absolute l h)
  ]

/-- Slots 0xD0 to 0xDF (30_encoding.md R63). -/
def slotsD (l h : Byte) : List Instr :=
  [
    .bne l, .cmp (.mem (.indirectIndexed l)), .absent 0xD2, .dcp (.indirectIndexed l),
    .dop 0xD4 l, .cmp (.mem (.zeropageX l)), .dec (.zeropageX l), .dcp (.zeropageX l),
    .cld, .cmp (.mem (.absoluteY l h)), .absent 0xDA, .dcp (.absoluteY l h),
    .top 0xDC l h, .cmp (.mem (.absoluteX l h)), .dec (.absoluteX l h), .dcp (.absoluteX l h)
  ]

/-- Slots 0xE0 to 0xEF (30_encoding.md R63). -/
def slotsE (l h : Byte) : List Instr :=
  [
    .cpx (.immediate l), .sbc (.mem (.indexedIndirect l)), .dop 0xE2 l, .isc (.indexedIndirect l),
    .cpx (.mem (.zeropage l)), .sbc (.mem (.zeropage l)), .inc (.zeropage l), .isc (.zeropage l),
    .inx, .sbc (.immediate l), .nop, .sbcAlias l,
    .cpx (.mem (.absolute l h)), .sbc (.mem (.absolute l h)), .inc (.absolute l h), .isc (.absolute l h)
  ]

/-- Slots 0xF0 to 0xFF (30_encoding.md R63). -/
def slotsF (l h : Byte) : List Instr :=
  [
    .beq l, .sbc (.mem (.indirectIndexed l)), .absent 0xF2, .isc (.indirectIndexed l),
    .dop 0xF4 l, .sbc (.mem (.zeropageX l)), .inc (.zeropageX l), .isc (.zeropageX l),
    .sed, .sbc (.mem (.absoluteY l h)), .absent 0xFA, .isc (.absoluteY l h),
    .top 0xFC l h, .sbc (.mem (.absoluteX l h)), .inc (.absoluteX l h), .isc (.absoluteX l h)
  ]

/-- The opcode map: high nibble down, low nibble across (30_encoding.md R63). -/
def slotRows (l h : Byte) : List (List Instr) :=
  [slots0 l h, slots1 l h, slots2 l h, slots3 l h, slots4 l h, slots5 l h, slots6 l h, slots7 l h] ++
  [slots8 l h, slots9 l h, slotsA l h, slotsB l h, slotsC l h, slotsD l h, slotsE l h, slotsF l h]

/-- The instruction of an opcode byte with its operand bytes `l` (first) and `h` (second). The map has an entry
for every byte; an entry that does not use an operand byte ignores it. -/
def decodeOp (op l h : Byte) : Instr :=
  ((slotRows l h).getD (op.toNat / 16) []).getD (op.toNat % 16) (.absent op)

/-- How many operand bytes an opcode byte calls for; none for an absent slot (30_encoding.md R60, R61). -/
def operandCount (op : Byte) : Nat := (decodeOp op 0 0).operandBytes.length

/-- Why a list of bytes does not begin with an instruction. -/
inductive DecodeError where
  /-- There is no opcode byte. -/
  | noOpcode
  /-- The opcode byte calls for more operand bytes than follow. -/
  | missingOperand (op : Byte)
deriving DecidableEq, Repr

/-- The decoder: the instruction at the head of a list of bytes, and the bytes after it (30_encoding.md R60, R61).
A byte of an absent slot decodes, alone, to `absent`, whose meaning is the fault (60_exceptions.md R272). -/
def decode : List Byte → Except DecodeError (Instr × List Byte)
  | [] => .error .noOpcode
  | op :: bytes =>
    match operandCount op, bytes with
    | 0, rest => .ok (decodeOp op 0 0, rest)
    | 1, l :: rest => .ok (decodeOp op l 0, rest)
    | 2, l :: h :: rest => .ok (decodeOp op l h, rest)
    | _, _ => .error (.missingOperand op)

/-- One row of the table by mnemonic: the opcode byte of each mode the mnemonic has (30_encoding.md R64). -/
structure OpcodeRow where
  accumulator : Option Byte := none
  immediate : Option Byte := none
  zeropage : Option Byte := none
  zeropageX : Option Byte := none
  zeropageY : Option Byte := none
  absolute : Option Byte := none
  absoluteX : Option Byte := none
  absoluteY : Option Byte := none
  indexedIndirect : Option Byte := none
  indirectIndexed : Option Byte := none

/-- The opcode of a memory operand's column. -/
def OpcodeRow.mem (r : OpcodeRow) : MemMode → Option Byte
  | .zeropage _ => r.zeropage
  | .zeropageX _ => r.zeropageX
  | .zeropageY _ => r.zeropageY
  | .absolute _ _ => r.absolute
  | .absoluteX _ _ => r.absoluteX
  | .absoluteY _ _ => r.absoluteY
  | .indexedIndirect _ => r.indexedIndirect
  | .indirectIndexed _ => r.indirectIndexed

/-- The opcode of a loadable operand's column. -/
def OpcodeRow.load (r : OpcodeRow) : LoadMode → Option Byte
  | .immediate _ => r.immediate
  | .mem m => r.mem m

/-- The opcode of a shift operand's column. -/
def OpcodeRow.rmw (r : OpcodeRow) : RmwMode → Option Byte
  | .accumulator => r.accumulator
  | .mem m => r.mem m

/-- The opcode byte of an instruction; none for a form the table has no opcode for (30_encoding.md R64, R66). -/
def Instr.opcode : Instr → Option Byte
  | .adc m => OpcodeRow.load { immediate := some 0x69, zeropage := some 0x65, zeropageX := some 0x75, absolute := some 0x6D, absoluteX := some 0x7D, absoluteY := some 0x79, indexedIndirect := some 0x61, indirectIndexed := some 0x71 } m
  | .and m => OpcodeRow.load { immediate := some 0x29, zeropage := some 0x25, zeropageX := some 0x35, absolute := some 0x2D, absoluteX := some 0x3D, absoluteY := some 0x39, indexedIndirect := some 0x21, indirectIndexed := some 0x31 } m
  | .asl m => OpcodeRow.rmw { accumulator := some 0x0A, zeropage := some 0x06, zeropageX := some 0x16, absolute := some 0x0E, absoluteX := some 0x1E } m
  | .bcc _ => some 0x90
  | .bcs _ => some 0xB0
  | .beq _ => some 0xF0
  | .bit m => OpcodeRow.mem { zeropage := some 0x24, absolute := some 0x2C } m
  | .bmi _ => some 0x30
  | .bne _ => some 0xD0
  | .bpl _ => some 0x10
  | .brk => some 0x00
  | .bvc _ => some 0x50
  | .bvs _ => some 0x70
  | .clc => some 0x18
  | .cld => some 0xD8
  | .cli => some 0x58
  | .clv => some 0xB8
  | .cmp m => OpcodeRow.load { immediate := some 0xC9, zeropage := some 0xC5, zeropageX := some 0xD5, absolute := some 0xCD, absoluteX := some 0xDD, absoluteY := some 0xD9, indexedIndirect := some 0xC1, indirectIndexed := some 0xD1 } m
  | .cpx m => OpcodeRow.load { immediate := some 0xE0, zeropage := some 0xE4, absolute := some 0xEC } m
  | .cpy m => OpcodeRow.load { immediate := some 0xC0, zeropage := some 0xC4, absolute := some 0xCC } m
  | .dec m => OpcodeRow.mem { zeropage := some 0xC6, zeropageX := some 0xD6, absolute := some 0xCE, absoluteX := some 0xDE } m
  | .dex => some 0xCA
  | .dey => some 0x88
  | .eor m => OpcodeRow.load { immediate := some 0x49, zeropage := some 0x45, zeropageX := some 0x55, absolute := some 0x4D, absoluteX := some 0x5D, absoluteY := some 0x59, indexedIndirect := some 0x41, indirectIndexed := some 0x51 } m
  | .inc m => OpcodeRow.mem { zeropage := some 0xE6, zeropageX := some 0xF6, absolute := some 0xEE, absoluteX := some 0xFE } m
  | .inx => some 0xE8
  | .iny => some 0xC8
  | .jmp _ _ => some 0x4C
  | .jmpIndirect _ _ => some 0x6C
  | .jsr _ _ => some 0x20
  | .lda m => OpcodeRow.load { immediate := some 0xA9, zeropage := some 0xA5, zeropageX := some 0xB5, absolute := some 0xAD, absoluteX := some 0xBD, absoluteY := some 0xB9, indexedIndirect := some 0xA1, indirectIndexed := some 0xB1 } m
  | .ldx m => OpcodeRow.load { immediate := some 0xA2, zeropage := some 0xA6, zeropageY := some 0xB6, absolute := some 0xAE, absoluteY := some 0xBE } m
  | .ldy m => OpcodeRow.load { immediate := some 0xA0, zeropage := some 0xA4, zeropageX := some 0xB4, absolute := some 0xAC, absoluteX := some 0xBC } m
  | .lsr m => OpcodeRow.rmw { accumulator := some 0x4A, zeropage := some 0x46, zeropageX := some 0x56, absolute := some 0x4E, absoluteX := some 0x5E } m
  | .nop => some 0xEA
  | .ora m => OpcodeRow.load { immediate := some 0x09, zeropage := some 0x05, zeropageX := some 0x15, absolute := some 0x0D, absoluteX := some 0x1D, absoluteY := some 0x19, indexedIndirect := some 0x01, indirectIndexed := some 0x11 } m
  | .pha => some 0x48
  | .php => some 0x08
  | .pla => some 0x68
  | .plp => some 0x28
  | .rol m => OpcodeRow.rmw { accumulator := some 0x2A, zeropage := some 0x26, zeropageX := some 0x36, absolute := some 0x2E, absoluteX := some 0x3E } m
  | .ror m => OpcodeRow.rmw { accumulator := some 0x6A, zeropage := some 0x66, zeropageX := some 0x76, absolute := some 0x6E, absoluteX := some 0x7E } m
  | .rti => some 0x40
  | .rts => some 0x60
  | .sbc m => OpcodeRow.load { immediate := some 0xE9, zeropage := some 0xE5, zeropageX := some 0xF5, absolute := some 0xED, absoluteX := some 0xFD, absoluteY := some 0xF9, indexedIndirect := some 0xE1, indirectIndexed := some 0xF1 } m
  | .sec => some 0x38
  | .sed => some 0xF8
  | .sei => some 0x78
  | .sta m => OpcodeRow.mem { zeropage := some 0x85, zeropageX := some 0x95, absolute := some 0x8D, absoluteX := some 0x9D, absoluteY := some 0x99, indexedIndirect := some 0x81, indirectIndexed := some 0x91 } m
  | .stx m => OpcodeRow.mem { zeropage := some 0x86, zeropageY := some 0x96, absolute := some 0x8E } m
  | .sty m => OpcodeRow.mem { zeropage := some 0x84, zeropageX := some 0x94, absolute := some 0x8C } m
  | .tax => some 0xAA
  | .tay => some 0xA8
  | .tsx => some 0xBA
  | .txa => some 0x8A
  | .txs => some 0x9A
  | .tya => some 0x98
  | .alr _ => some 0x4B
  | .anc slot _ => if ancSlots.contains slot then some slot else none
  | .arr _ => some 0x6B
  | .dcp m => OpcodeRow.mem { zeropage := some 0xC7, zeropageX := some 0xD7, absolute := some 0xCF, absoluteX := some 0xDF, absoluteY := some 0xDB, indexedIndirect := some 0xC3, indirectIndexed := some 0xD3 } m
  | .dop slot _ => if dopSlots.contains slot then some slot else none
  | .isc m => OpcodeRow.mem { zeropage := some 0xE7, zeropageX := some 0xF7, absolute := some 0xEF, absoluteX := some 0xFF, absoluteY := some 0xFB, indexedIndirect := some 0xE3, indirectIndexed := some 0xF3 } m
  | .lax m => OpcodeRow.mem { zeropage := some 0xA7, zeropageY := some 0xB7, absolute := some 0xAF, absoluteY := some 0xBF, indexedIndirect := some 0xA3, indirectIndexed := some 0xB3 } m
  | .rla m => OpcodeRow.mem { zeropage := some 0x27, zeropageX := some 0x37, absolute := some 0x2F, absoluteX := some 0x3F, absoluteY := some 0x3B, indexedIndirect := some 0x23, indirectIndexed := some 0x33 } m
  | .rra m => OpcodeRow.mem { zeropage := some 0x67, zeropageX := some 0x77, absolute := some 0x6F, absoluteX := some 0x7F, absoluteY := some 0x7B, indexedIndirect := some 0x63, indirectIndexed := some 0x73 } m
  | .sax m => OpcodeRow.mem { zeropage := some 0x87, zeropageY := some 0x97, absolute := some 0x8F, indexedIndirect := some 0x83 } m
  | .sbcAlias _ => some 0xEB
  | .slo m => OpcodeRow.mem { zeropage := some 0x07, zeropageX := some 0x17, absolute := some 0x0F, absoluteX := some 0x1F, absoluteY := some 0x1B, indexedIndirect := some 0x03, indirectIndexed := some 0x13 } m
  | .sre m => OpcodeRow.mem { zeropage := some 0x47, zeropageX := some 0x57, absolute := some 0x4F, absoluteX := some 0x5F, absoluteY := some 0x5B, indexedIndirect := some 0x43, indirectIndexed := some 0x53 } m
  | .top slot _ _ => if topSlots.contains slot then some slot else none
  | .xaa _ => some 0x8B
  | .absent slot => if absentSlots.contains slot then some slot else none

/-- The encoder: the bytes of an instruction at ascending addresses, opcode first (30_encoding.md R60); none where
there is no such form. -/
def encode (i : Instr) : Option (List Byte) := i.opcode.map fun op => op :: i.operandBytes

/-- Nominal cycle counts, high nibble of the opcode down, low nibble across; 0 in an absent slot
(70_reset_and_hazards.md R310; opcode_table.json). -/
def nominalRows : List (List Nat) :=
  [
   [7, 6, 0, 8, 3, 3, 5, 5, 3, 2, 2, 2, 4, 4, 6, 6],
   [2, 5, 0, 8, 4, 4, 6, 6, 2, 4, 0, 7, 4, 4, 7, 7],
   [6, 6, 0, 8, 3, 3, 5, 5, 4, 2, 2, 2, 4, 4, 6, 6],
   [2, 5, 0, 8, 4, 4, 6, 6, 2, 4, 0, 7, 4, 4, 7, 7],
   [6, 6, 0, 8, 3, 3, 5, 5, 3, 2, 2, 2, 3, 4, 6, 6],
   [2, 5, 0, 8, 4, 4, 6, 6, 2, 4, 0, 7, 4, 4, 7, 7],
   [6, 6, 0, 8, 3, 3, 5, 5, 4, 2, 2, 2, 5, 4, 6, 6],
   [2, 5, 0, 8, 4, 4, 6, 6, 2, 4, 0, 7, 4, 4, 7, 7],
   [2, 6, 2, 6, 3, 3, 3, 3, 2, 2, 2, 2, 4, 4, 4, 4],
   [2, 6, 0, 0, 4, 4, 4, 4, 2, 5, 2, 0, 0, 5, 0, 0],
   [2, 6, 2, 6, 3, 3, 3, 3, 2, 2, 2, 0, 4, 4, 4, 4],
   [2, 5, 0, 5, 4, 4, 4, 4, 2, 4, 2, 0, 4, 4, 4, 4],
   [2, 6, 2, 8, 3, 3, 5, 5, 2, 2, 2, 0, 4, 4, 6, 6],
   [2, 5, 0, 8, 4, 4, 6, 6, 2, 4, 0, 7, 4, 4, 7, 7],
   [2, 6, 2, 8, 3, 3, 5, 5, 2, 2, 2, 2, 4, 4, 6, 6],
   [2, 5, 0, 8, 4, 4, 6, 6, 2, 4, 0, 7, 4, 4, 7, 7]
  ]

/-- The nominal cycle count of an opcode byte (70_reset_and_hazards.md R310). -/
def nominalCycles (op : Byte) : Nat := (nominalRows.getD (op.toNat / 16) []).getD (op.toNat % 16) 0

/-- The three bytes of a table word of `nbits` bits: bit 0 of the word is bit 0 of the first byte, and every bit
from `nbits` on is 0. -/
def tableWordBytes (nbits w : Nat) : List Byte :=
  let v := w % 2 ^ nbits
  [BitVec.ofNat 8 v, BitVec.ofNat 8 (v / 256), BitVec.ofNat 8 (v / 65536)]

/-- The instruction the decoder reads from a table word. -/
def decodeTableWord (nbits w : Nat) : Option Instr :=
  match decode (tableWordBytes nbits w) with
  | .ok (i, _) => some i
  | .error _ => none

end Sys2Proof
end

