-- ==== Sys2Proof/Config.lean ====
section
/-! DEFINITION. What is fixed for one machine and not by the instruction set: the spec's open parameters
(00_scope.md R4; 92_eei_decisions.md, last table) and the two values this model had to name itself. -/

namespace Sys2Proof

/-- The two open address-forming parameters of 00_scope.md R4. State carries them, so that a statement about
every state is a statement about both values of each; no step changes them (log 3). -/
structure Params where
  /-- `JMP_IND_PAGE_WRAP` (41_addressing_modes.md R111). -/
  jmpIndPageWrap : Bool
  /-- `ZP_PTR_WRAP` (20_memory.md R44). -/
  zpPtrWrap : Bool
deriving DecidableEq, Repr

/-- The defaults the spec recommends (00_scope.md R4; 92_eei_decisions.md D15, D16). -/
def Params.recommended : Params := { jmpIndPageWrap := false, zpPtrWrap := true }

/-- `RESET_REGS`: the ten values the spec leaves open after reset (00_scope.md R4; 92_eei_decisions.md D2). -/
structure ResetRegs where
  a : Byte
  x : Byte
  y : Byte
  s : Byte
  n : Bool
  v : Bool
  d : Bool
  i : Bool
  z : Bool
  c : Bool
deriving DecidableEq, Repr

/-- DESIGN CHOICE (log 1), unsafe: the values `State.reset` takes for `RESET_REGS`. The spec gives none and warns
against assuming any; the reset action itself (`Machine.applyReset`) takes every value. -/
def Config.resetRegs : ResetRegs :=
  { a := 0, x := 0, y := 0, s := 0, n := false, v := false, d := false, i := false, z := false, c := false }

/-- DESIGN CHOICE (log 2), unsafe: what a memory location nothing has written reads as. The spec gives no initial
content (20_memory.md R42). -/
def Config.unwritten : Byte := 0x00

end Sys2Proof
end

