-- ==== Sys2Proof/Machine/Bits.lean ====
section
/-! DEFINITION. Bit fields, byte order and extension (00_scope.md R5). -/

namespace Sys2Proof.Machine

/-- `lo(w)`, bits 7..0 of a word (00_scope.md R5). -/
def lo (w : Word) : Byte := w.extractLsb' 0 8

/-- `hi(w)`, bits 15..8 of a word (00_scope.md R5); the page of an address (R9). -/
def hi (w : Word) : Byte := w.extractLsb' 8 8

/-- `word(h, l)`, `h * 256 + l` (00_scope.md R5). -/
def word (h l : Byte) : Word := h ++ l

/-- `zext_16(b)` (00_scope.md R5). -/
def zext16 (b : Byte) : Word := b.setWidth 16

/-- `sext_8(b)` at 16 bits: the two's-complement reading of a byte, added to an address modulo 65536
(00_scope.md R5; 41_addressing_modes.md R114). -/
def sext16 (b : Byte) : Word := b.signExtend 16

/-- `bit(v, i)` of a byte (00_scope.md R5). -/
def bit (v : Byte) (i : Nat) : Bool := v.getLsbD i

end Sys2Proof.Machine
end

