-- ==== Sys2Proof/Machine/Memory.lean ====
section
/-! DEFINITION. The one flat memory (20_memory.md R40 to R43): a list of (address, byte) pairs, addresses strictly
rising below `memSize`, none holding what an unlisted address reads as. -/

namespace Sys2Proof.Machine

/-- `MEM_SIZE`, the number of locations (00_scope.md R4; 20_memory.md R40). -/
def memSize : Nat := 65536

/-- The contents of memory. -/
abbrev Memory := List Host.Cell

/-- The byte at a location: the listed one, else what an unwritten location reads as (log 2). -/
def Memory.get : Memory → Nat → Byte
  | [], _ => Config.unwritten
  | (k, v) :: m, a => if k = a then v else Memory.get m a

/-- Memory without any entry for a location. -/
def Memory.erase : Memory → Nat → Memory
  | [], _ => []
  | (k, v) :: m, a => if k = a then Memory.erase m a else (k, v) :: Memory.erase m a

/-- Memory with an entry put in its place by address. -/
def Memory.insert : Memory → Nat → Byte → Memory
  | [], a, v => [(a, v)]
  | (k, w) :: m, a, v => if a < k then (a, v) :: (k, w) :: m else (k, w) :: Memory.insert m a v

/-- Memory with a location's byte replaced. -/
def Memory.set (m : Memory) (a : Nat) (v : Byte) : Memory :=
  if v = Config.unwritten then m.erase a else (m.erase a).insert a v

/-- `MemRead(addr, 1)` (20_memory.md R41). A 16-bit address is below `MEM_SIZE`, so the reduction is the identity. -/
def Memory.read (m : Memory) (a : Word) : Byte := m.get a.toNat

/-- `MemWrite(addr, 1, v)` (20_memory.md R41). -/
def Memory.write (m : Memory) (a : Word) (v : Byte) : Memory := m.set a.toNat v

/-- `Read16(a)`: the low byte at `a`, the high byte at `u16(a + 1)` (20_memory.md R43). -/
def Memory.read16 (m : Memory) (a : Word) : Word := word (m.read (a + 1)) (m.read a)

/-- The canonical form from a least address on. -/
def Memory.wfFrom : Nat → Memory → Bool
  | _, [] => true
  | n, (k, v) :: m => decide (n ≤ k) && decide (k < memSize) && decide (v ≠ Config.unwritten) && Memory.wfFrom (k + 1) m

/-- The canonical form: addresses strictly rising and below `MEM_SIZE`, no entry equal to what an unlisted address
reads as. Equal memories in this form are equal lists. -/
def Memory.wf (m : Memory) : Bool := Memory.wfFrom 0 m

/-- The address of the reset vector's low byte (20_memory.md R47). -/
def resetVector : Word := 0xFFFC

end Sys2Proof.Machine
end

