-- ==== Sys2Proof/Machine/State.lean ====
section
/-! DEFINITION. All state of the block (10_state.md R10 to R33), what the host still does to its ports, and the
machine right after reset. -/

namespace Sys2Proof.Machine

/-- The six live flags of P (10_state.md R16). Bit 5 is hardwired 1 and the live B hardwired 0, so neither has a
field; `Status.byte` supplies them (R16, R18). -/
structure Status where
  /-- bit 7, negative -/
  n : Bool
  /-- bit 6, overflow -/
  v : Bool
  /-- bit 3, decimal mode -/
  d : Bool
  /-- bit 2, interrupt disable -/
  i : Bool
  /-- bit 1, zero -/
  z : Bool
  /-- bit 0, carry -/
  c : Bool
deriving DecidableEq, Repr

/-- `seq`, the sequencer state (10_state.md R25). -/
inductive Seq where
  | fetchOpcode
  | waitCycles
  | executeFinal
  | serviceInterrupt
deriving DecidableEq, Repr

/-- The two interrupts (60_exceptions.md R270); `svc` says which is being serviced (10_state.md R29). -/
inductive Interrupt where
  | nmi
  | irq
deriving DecidableEq, Repr

/-- `ctx`, the execution context (10_state.md R28). -/
structure Ctx where
  /-- ExecuteFinal invocations of the current instruction that returned "not completed" -/
  stall : Nat
  /-- the effective address or branch target latched by the first of them -/
  ea : Option Word
deriving DecidableEq, Repr

/-- What the fault `UnknownOpcode(op, addr)` records (10_state.md R30; 60_exceptions.md R272). -/
structure UnknownOpcode where
  op : Byte
  addr : Word
deriving DecidableEq, Repr

/-- One write the host makes through the debug access (40_sequencer.md R80, R95). -/
inductive Poke where
  | a (v : Byte)
  | x (v : Byte)
  | y (v : Byte)
  | s (v : Byte)
  | pc (v : Word)
  | p (v : Byte)
  | mem (addr : Word) (v : Byte)
deriving DecidableEq, Repr

/-- One thing the host does between two ticks (40_sequencer.md R80). -/
inductive HostAction where
  /-- the `reset` input, with the values `RESET_REGS` takes (70_reset_and_hazards.md R300) -/
  | reset (r : ResetRegs)
  /-- an `nmi_req` event (40_sequencer.md R92) -/
  | nmiReq
  /-- an `irq_req` event (40_sequencer.md R92) -/
  | irqReq
  /-- a debug write (40_sequencer.md R95) -/
  | poke (w : Poke)
deriving DecidableEq, Repr

/-- What the host does before one tick or step, in order, and the level of `halt` that tick sees (log 5). -/
structure Interval where
  actions : List HostAction
  halt : Bool
deriving DecidableEq, Repr

/-- The state. The comment on a field names its rule in 10_state.md unless it says otherwise. -/
structure State where
  /-- the accumulator (R10) -/
  a : Byte
  /-- index register X (R11) -/
  x : Byte
  /-- index register Y (R12) -/
  y : Byte
  /-- the stack pointer S, an offset into page 1 (R13) -/
  s : Byte
  /-- the program counter (R15) -/
  pc : Word
  /-- the processor status P (R16) -/
  p : Status
  /-- the attached memory (20_memory.md R40) -/
  mem : Memory
  /-- the sequencer state (R25) -/
  seq : Seq
  /-- the remaining-cycles counter (R26) -/
  wait : Nat
  /-- the latched opcode byte (R27) -/
  ir : Byte
  /-- the latched first operand byte (R27) -/
  op1 : Byte
  /-- the latched second operand byte (R27) -/
  op2 : Byte
  /-- the execution context (R28) -/
  ctx : Ctx
  /-- an NMI request not yet serviced (R29) -/
  nmiPending : Bool
  /-- an IRQ request not yet serviced (R29) -/
  irqPending : Bool
  /-- the service in progress (R29) -/
  svc : Interrupt
  /-- the sticky Faulted condition (R30) -/
  fault : Option UnknownOpcode
  /-- the cumulative clock count (R31) -/
  cycles : Nat
  /-- the `completed` output of the last tick (40_sequencer.md R80, R90; log 6) -/
  completed : Bool
  /-- the `error` output of the last tick (40_sequencer.md R80, R83; log 6) -/
  error : Option UnknownOpcode
  /-- the machine's two open parameters, which no step changes (00_scope.md R4; log 3) -/
  params : Params
  /-- what the host does from now on, one interval per tick or step; when it is empty the host does nothing (log 5) -/
  inputs : List Interval
deriving DecidableEq, Repr

/-- Why a step stops with a fault: never. Nobody raises one. The machine's only fault, `UnknownOpcode`, does not stop
the model: the spec describes its effect, the sticky Faulted condition in `State.fault`, so it is a next state
(60_exceptions.md R272; 40_sequencer.md R83; log 8). Safe: there is no stop to hide behind. -/
inductive Fault where
deriving DecidableEq, Repr

/-- Why a step answers with no meaning. -/
inductive Refusal where
  /-- Raised by an arm of `exec` for an instruction that has no meaning yet; no arm does now. Safe: the model stops
  where the hardware goes on. -/
  | notModelled (mnemonic : String)
  /-- Raised by a host write while the block is neither at FetchOpcode nor faulted: it "has no defined effect and a
  model refuses it" (40_sequencer.md R95). Never raised by an instruction. Safe: the run stops. -/
  | hostWriteMidInstruction
deriving DecidableEq, Repr

/-- The outcome of a meaning, a tick or a step. -/
abbrev Result := Host.Outcome State Fault Refusal

/-- The machine right after reset (10_state.md R33; 70_reset_and_hazards.md R300), over a memory nothing has written,
with the register values of `Config.resetRegs` (DESIGN CHOICE, log 1). The fields the spec calls don't-care are
log 9's, the outputs log 6's, the empty input list log 5's. -/
def State.reset : State :=
  { a := Config.resetRegs.a
    x := Config.resetRegs.x
    y := Config.resetRegs.y
    s := Config.resetRegs.s
    pc := Memory.read16 [] resetVector
    p := { n := Config.resetRegs.n, v := Config.resetRegs.v, d := Config.resetRegs.d,
           i := Config.resetRegs.i, z := Config.resetRegs.z, c := Config.resetRegs.c }
    mem := []
    seq := .fetchOpcode
    wait := 0
    ir := 0
    op1 := 0
    op2 := 0
    ctx := { stall := 0, ea := none }
    nmiPending := false
    irqPending := false
    svc := .nmi
    fault := none
    cycles := 0
    completed := false
    error := none
    params := Params.recommended
    inputs := [] }

end Sys2Proof.Machine
end

