-- ==== Sys2Proof/Machine/Flags.lean ====
section
/-! DEFINITION. P as bits and as a byte (10_state.md R16 to R23), and every ALU computation with its flags
(43_arithmetic.md, 44_logic_shift.md). Sums and differences are taken on unbounded integers and narrowed at the end. -/

namespace Sys2Proof.Machine

/-- The six flags by name (00_scope.md R6). -/
inductive FlagName where
  | n | v | d | i | z | c
deriving DecidableEq, Repr

/-- The value of a flag. -/
def Status.get (p : Status) : FlagName → Bool
  | .n => p.n
  | .v => p.v
  | .d => p.d
  | .i => p.i
  | .z => p.z
  | .c => p.c

/-- P with one flag written. -/
def Status.set (p : Status) (f : FlagName) (b : Bool) : Status :=
  match f with
  | .n => { p with n := b }
  | .v => { p with v := b }
  | .d => { p with d := b }
  | .i => { p with i := b }
  | .z => { p with z := b }
  | .c => { p with c := b }

/-- `SetNZ(v)` on P (10_state.md R20). -/
def Status.setNZ (p : Status) (v : Byte) : Status := { p with n := bit v 7, z := v == 0 }

/-- `PByte(b)`: N V 1 b D I Z C from bit 7 down to bit 0 (10_state.md R18). -/
def Status.byte (p : Status) (b : Bool) : Byte :=
  BitVec.ofBool p.n ++ BitVec.ofBool p.v ++ BitVec.ofBool true ++ BitVec.ofBool b ++
  BitVec.ofBool p.d ++ BitVec.ofBool p.i ++ BitVec.ofBool p.z ++ BitVec.ofBool p.c

/-- `SetP(v)`: the six flags of a popped byte, bits 5 and 4 discarded (10_state.md R19). -/
def Status.ofByte (v : Byte) : Status :=
  { n := bit v 7, v := bit v 6, d := bit v 3, i := bit v 2, z := bit v 1, c := bit v 0 }

/-- What an addition or subtraction gives: the result byte and four flags (43_arithmetic.md R151). -/
structure AluResult where
  r : Byte
  n : Bool
  v : Bool
  z : Bool
  c : Bool
deriving DecidableEq, Repr

/-- `AddBin(a, m, c)` (43_arithmetic.md R151). -/
def addBin (a m : Byte) (c : Bool) : AluResult :=
  let s := a.toNat + m.toNat + c.toNat
  let r : Byte := BitVec.ofNat 8 s
  { r := r
    n := bit r 7
    v := ((a ^^^ r) &&& (m ^^^ r) &&& 0x80#8) != 0
    z := r == 0
    c := decide (s > 0xFF) }

/-- A byte from its two digits, each masked to four bits (43_arithmetic.md R154, R157). -/
def nibbles (h l : Nat) : Byte := BitVec.ofNat 8 ((h % 16) * 16 + l % 16)

/-- `AddDec(a, m, c)`, BCD addition: N, V, Z from the binary sum (43_arithmetic.md R154). -/
def addDec (a m : Byte) (c : Bool) : AluResult :=
  let bin := addBin a m c
  let l0 := a.toNat % 16 + m.toNat % 16 + c.toNat
  let k := if l0 > 9 then 1 else 0
  let l := if l0 > 9 then l0 + 6 else l0
  let h0 := a.toNat / 16 + m.toNat / 16 + k
  let h := if h0 > 9 then h0 + 6 else h0
  { r := nibbles h l, n := bin.n, v := bin.v, z := bin.z, c := decide (h0 > 9) }

/-- `SubBin(a, m, c)`, binary subtraction with borrow `1 - c` (43_arithmetic.md R155). -/
def subBin (a m : Byte) (c : Bool) : AluResult :=
  let d : Int := (a.toNat : Int) - (m.toNat : Int) - (1 - (c.toNat : Int))
  let r : Byte := BitVec.ofInt 8 d
  { r := r
    n := bit r 7
    v := ((a ^^^ r) &&& (a ^^^ m) &&& 0x80#8) != 0
    z := r == 0
    c := decide (0 ≤ d) }

/-- `SubDec(a, m, c)`, BCD subtraction: all four flags from the binary subtraction (43_arithmetic.md R157). -/
def subDec (a m : Byte) (c : Bool) : AluResult :=
  let bin := subBin a m c
  let l0 : Int := ((a.toNat % 16 : Nat) : Int) - ((m.toNat % 16 : Nat) : Int) - (1 - (c.toNat : Int))
  let k : Int := if l0 < 0 then 1 else 0
  let l : Int := if l0 < 0 then l0 + 10 else l0
  let h0 : Int := ((a.toNat / 16 : Nat) : Int) - ((m.toNat / 16 : Nat) : Int) - k
  let h : Int := if h0 < 0 then h0 + 10 else h0
  { r := nibbles (h % 256).toNat (l % 256).toNat, n := bin.n, v := bin.v, z := bin.z, c := bin.c }

/-- What a shift or rotate gives: the result byte and the carry-out (44_logic_shift.md R184). -/
structure ShiftResult where
  r : Byte
  c : Bool
deriving DecidableEq, Repr

/-- `Asl(v, c)`: bit 0 of the result is 0 (44_logic_shift.md R184). -/
def aslByte (v : Byte) (_c : Bool) : ShiftResult := { r := v <<< 1, c := bit v 7 }

/-- `Lsr(v, c)`: bit 7 of the result is 0 (44_logic_shift.md R184). -/
def lsrByte (v : Byte) (_c : Bool) : ShiftResult := { r := v >>> 1, c := bit v 0 }

/-- `Rol(v, c)`: the old carry enters bit 0 (44_logic_shift.md R184). -/
def rolByte (v : Byte) (c : Bool) : ShiftResult := { r := (v <<< 1) ||| (BitVec.ofBool c).setWidth 8, c := bit v 7 }

/-- `Ror(v, c)`: the old carry enters bit 7 (44_logic_shift.md R184). -/
def rorByte (v : Byte) (c : Bool) : ShiftResult :=
  { r := (v >>> 1) ||| ((BitVec.ofBool c).setWidth 8 <<< 7), c := bit v 0 }

end Sys2Proof.Machine
end

