-- ==== Sys2Proof/Machine/Ops.lean ====
section
/-! DEFINITION. The named operations over registers, memory and the stack, and taking and leaving an exception, each
once. -/

namespace Sys2Proof.Machine

/-! ### Register and memory writes: each register's one home -/

def State.setA (v : Byte) (st : State) : State := { st with a := v }
def State.setX (v : Byte) (st : State) : State := { st with x := v }
def State.setY (v : Byte) (st : State) : State := { st with y := v }
def State.setS (v : Byte) (st : State) : State := { st with s := v }
def State.setPC (v : Word) (st : State) : State := { st with pc := v }
def State.setStatus (p : Status) (st : State) : State := { st with p := p }
def State.setMem (m : Memory) (st : State) : State := { st with mem := m }

/-- One flag written, the others kept. -/
def State.setFlag (f : FlagName) (b : Bool) (st : State) : State := st.setStatus (st.p.set f b)

/-- `SetNZ(v)` (10_state.md R20). -/
def State.setNZ (v : Byte) (st : State) : State := st.setStatus (st.p.setNZ v)

/-- `MemWrite(addr, 1, v)` (20_memory.md R41). -/
def State.writeByte (a : Word) (v : Byte) (st : State) : State := st.setMem (st.mem.write a v)

/-! ### The stack -/

/-- The location a value of S names: `0x0100 + S` (10_state.md R13). -/
def stackAddr (s : Byte) : Word := word 0x01 s

/-- `Push(v)`: write, then decrement (10_state.md R14). -/
def push (v : Byte) (st : State) : State := (st.writeByte (stackAddr st.s) v).setS (st.s - 1)

/-- What `Pop()` does to S: increment, before the read (10_state.md R14). -/
def popMove (st : State) : State := st.setS (st.s + 1)

/-- The byte `Pop()` returns: the one at the incremented S (10_state.md R14). -/
def popByte (st : State) : Byte := st.mem.read (stackAddr (st.s + 1))

/-- Push a 16-bit value, high byte first, so that it lies little-endian in memory (20_memory.md R43). -/
def pushWord (w : Word) (st : State) : State := push (lo w) (push (hi w) st)

/-! ### Exceptions -/

/-- The NMI vector (20_memory.md R47). -/
def nmiVector : Word := 0xFFFA

/-- The vector IRQ and BRK share (20_memory.md R47). -/
def irqVector : Word := 0xFFFE

/-- Taking a trap: the return address, high byte first, then `PByte(b)` with the flags as they are before I is set;
I set; PC from the vector, read after the pushes. The one entry of BRK, NMI and IRQ (60_exceptions.md R276, R277;
46_stack_flags_system.md R235). -/
def takeTrap (ret : Word) (b : Bool) (vector : Word) (st : State) : State :=
  let pushed := push (st.p.byte b) (pushWord ret st)
  (pushed.setFlag .i true).setPC (pushed.mem.read16 vector)

/-- Where an interrupt's handler address stands (60_exceptions.md R270). -/
def Interrupt.vector : Interrupt → Word
  | .nmi => nmiVector
  | .irq => irqVector

/-- The serviced request's pending bit cleared; the other is kept (60_exceptions.md R276). -/
def clearPending (k : Interrupt) (st : State) : State :=
  match k with
  | .nmi => { st with nmiPending := false }
  | .irq => { st with irqPending := false }

/-- `InterruptEntry(k)` (60_exceptions.md R276): the stacked PC is the next instruction's address, the stacked B is 0. -/
def interruptEntry (k : Interrupt) (st : State) : State :=
  clearPending k (takeTrap st.pc false k.vector st)

/-- Returning from a trap: P with bits 5 and 4 of the popped byte discarded, then PC low, then PC high, no adjustment
(46_stack_flags_system.md R236; 60_exceptions.md R280). -/
def returnFromTrap (st : State) : State :=
  let st1 := (popMove st).setStatus (Status.ofByte (popByte st))
  let st2 := popMove st1
  let st3 := popMove st2
  st3.setPC (word (popByte st2) (popByte st1))

/-- `raise UnknownOpcode(op, addr)`: PC is already one past the offending byte, whose address is therefore
`u16(PC - 1)` (60_exceptions.md R272). -/
def raiseUnknownOpcode (op : Byte) (st : State) : State :=
  { st with fault := some { op := op, addr := st.pc - 1 } }

/-! ### Outcomes -/

/-- Go on from a next state; a stop stays. -/
def andThen (o : Result) (f : State → Result) : Result :=
  match o with
  | .next st => f st
  | .fault r => .fault r
  | .refused r => .refused r

end Sys2Proof.Machine
end

