-- ==== Sys2Proof/Machine/Operands.lean ====
section
/-! DEFINITION. The addressing-mode dispatcher (41_addressing_modes.md): effective addresses, loads, stores, page
crossing, branch targets, and the stalls an instruction makes (40_sequencer.md R87). PC is the address of the byte
after the instruction throughout. -/

namespace Sys2Proof.Machine

/-- `Read16ZP(z)`: the pointer in page zero, its high byte from `u8(z + 1)` when `ZP_PTR_WRAP`, else from `z + 1`
(20_memory.md R44). -/
def read16ZP (z : Byte) (st : State) : Word :=
  word (st.mem.read (if st.params.zpPtrWrap then zext16 (z + 1) else zext16 z + 1)) (st.mem.read (zext16 z))

/-- The address before indexing and the index, in the three modes with a page-cross penalty
(41_addressing_modes.md R109, R110, R113, R115). -/
def indexed : MemMode → State → Option (Word × Byte)
  | .absoluteX op1 op2, st => some (word op2 op1, st.x)
  | .absoluteY op1 op2, st => some (word op2 op1, st.y)
  | .indirectIndexed op1, st => some (read16ZP op1 st, st.y)
  | .zeropage _, _ => none
  | .zeropageX _, _ => none
  | .zeropageY _, _ => none
  | .absolute _ _, _ => none
  | .indexedIndirect _, _ => none

/-- `Address(m)` (41_addressing_modes.md R105 to R110, R112, R113). -/
def address : MemMode → State → Word
  | .zeropage op1, _ => zext16 op1
  | .zeropageX op1, st => zext16 (op1 + st.x)
  | .zeropageY op1, st => zext16 (op1 + st.y)
  | .absolute op1 op2, _ => word op2 op1
  | .absoluteX op1 op2, st => word op2 op1 + zext16 st.x
  | .absoluteY op1 op2, st => word op2 op1 + zext16 st.y
  | .indexedIndirect op1, st => read16ZP (op1 + st.x) st
  | .indirectIndexed op1, st => read16ZP op1 st + zext16 st.y

/-- `PageCrossed`: adding the index carries out of the low byte (41_addressing_modes.md R115). -/
def pageCrossed (m : MemMode) (st : State) : Bool :=
  match indexed m st with
  | some (base, idx) => decide ((lo base).toNat + idx.toNat > 0xFF)
  | none => false

/-- `Load(m)` (41_addressing_modes.md R101, R104). -/
def load : LoadMode → State → Byte
  | .immediate op1, _ => op1
  | .mem m, st => st.mem.read (address m st)

/-- `Store(m, v)` to memory (41_addressing_modes.md R101). -/
def store (m : MemMode) (v : Byte) (st : State) : State := st.writeByte (address m st) v

/-- `Address(AbsoluteIndirect)`: the word at the pointer; with `JMP_IND_PAGE_WRAP` its high byte is taken from the
same page (41_addressing_modes.md R111). -/
def indirectTarget (op1 op2 : Byte) (st : State) : Word :=
  if st.params.jmpIndPageWrap then word (st.mem.read (word op2 (op1 + 1))) (st.mem.read (word op2 op1))
  else st.mem.read16 (word op2 op1)

/-- `Address(Relative)`: the displacement from the byte after the branch (41_addressing_modes.md R114). -/
def branchTarget (op1 : Byte) (st : State) : Word := st.pc + sext16 op1

/-- Read-modify-write of a memory byte through a mode: one address, one read, one write
(41_addressing_modes.md R116). Gives the byte written and the state. -/
def modify (f : Byte → Byte) (m : MemMode) (st : State) : Byte × State :=
  let ea := address m st
  let r := f (st.mem.read ea)
  (r, st.writeByte ea r)

/-- The memory operand an instruction loads or stores through (41_addressing_modes.md R117); none for those that
access none through a mode, TOP and DOP among them (47_undocumented.md R254, R255). -/
def accessMode : Instr → Option MemMode
  | .lda (.mem m) | .ldx (.mem m) | .ldy (.mem m) | .adc (.mem m) | .sbc (.mem m) | .cmp (.mem m)
  | .cpx (.mem m) | .cpy (.mem m) | .and (.mem m) | .ora (.mem m) | .eor (.mem m) => some m
  | .lda (.immediate _) | .ldx (.immediate _) | .ldy (.immediate _) | .adc (.immediate _) | .sbc (.immediate _)
  | .cmp (.immediate _) | .cpx (.immediate _) | .cpy (.immediate _) | .and (.immediate _) | .ora (.immediate _)
  | .eor (.immediate _) => none
  | .sta m | .stx m | .sty m | .inc m | .dec m | .bit m => some m
  | .slo m | .rla m | .sre m | .rra m | .dcp m | .isc m | .lax m | .sax m => some m
  | .asl (.mem m) | .lsr (.mem m) | .rol (.mem m) | .ror (.mem m) => some m
  | .asl .accumulator | .lsr .accumulator | .rol .accumulator | .ror .accumulator => none
  | .tax | .tay | .txa | .tya | .tsx | .txs | .inx | .iny | .dex | .dey => none
  | .bcc _ | .bcs _ | .beq _ | .bne _ | .bmi _ | .bpl _ | .bvc _ | .bvs _ => none
  | .jmp _ _ | .jmpIndirect _ _ | .jsr _ _ | .rts => none
  | .pha | .php | .pla | .plp | .clc | .sec | .cli | .sei | .cld | .sed | .clv | .nop | .brk | .rti => none
  | .anc _ _ | .alr _ | .arr _ | .xaa _ | .sbcAlias _ | .dop _ _ | .top _ _ _ | .absent _ => none

/-- A conditional branch: the flag it tests, the state it requires, its displacement (45_control_flow.md R200). -/
structure Branch where
  flag : FlagName
  want : Bool
  op1 : Byte
deriving DecidableEq, Repr

/-- The eight conditional branches (45_control_flow.md R201 to R208). -/
def branchOf : Instr → Option Branch
  | .bcc op1 => some { flag := .c, want := false, op1 := op1 }
  | .bcs op1 => some { flag := .c, want := true, op1 := op1 }
  | .beq op1 => some { flag := .z, want := true, op1 := op1 }
  | .bne op1 => some { flag := .z, want := false, op1 := op1 }
  | .bmi op1 => some { flag := .n, want := true, op1 := op1 }
  | .bpl op1 => some { flag := .n, want := false, op1 := op1 }
  | .bvc op1 => some { flag := .v, want := false, op1 := op1 }
  | .bvs op1 => some { flag := .v, want := true, op1 := op1 }
  | .lda _ | .ldx _ | .ldy _ | .sta _ | .stx _ | .sty _ | .tax | .tay | .txa | .tya | .tsx | .txs => none
  | .adc _ | .sbc _ | .cmp _ | .cpx _ | .cpy _ | .inc _ | .dec _ | .inx | .iny | .dex | .dey => none
  | .and _ | .ora _ | .eor _ | .bit _ | .asl _ | .lsr _ | .rol _ | .ror _ => none
  | .jmp _ _ | .jmpIndirect _ _ | .jsr _ _ | .rts => none
  | .pha | .php | .pla | .plp | .clc | .sec | .cli | .sei | .cld | .sed | .clv | .nop | .brk | .rti => none
  | .slo _ | .rla _ | .sre _ | .rra _ | .dcp _ | .isc _ | .lax _ | .sax _ => none
  | .anc _ _ | .alr _ | .arr _ | .xaa _ | .sbcAlias _ | .dop _ _ | .top _ _ _ | .absent _ => none

/-- Whether a branch's condition holds. -/
def Branch.taken (b : Branch) (st : State) : Bool := st.p.get b.flag == b.want

/-- The extra ticks of a branch: 0 if not taken, 1 within the page of the next instruction, 2 to another page
(45_control_flow.md R200). -/
def Branch.stalls (b : Branch) (st : State) : Nat :=
  if b.taken st then (if hi (branchTarget b.op1 st) = hi st.pc then 1 else 2) else 0

/-- `StallsNeeded()`: the "not completed" invocations of an instruction (40_sequencer.md R87). -/
def stallsNeeded (i : Instr) (st : State) : Nat :=
  match accessMode i, branchOf i with
  | some m, _ => if pageCrossed m st then 1 else 0
  | none, some b => b.stalls st
  | none, none => 0

/-- The effective address or branch target that the first stalled invocation latches in `ctx.ea`
(40_sequencer.md R86; 45_control_flow.md R200). -/
def effectiveAddress (i : Instr) (st : State) : Option Word :=
  match accessMode i, branchOf i with
  | some m, _ => some (address m st)
  | none, some b => some (branchTarget b.op1 st)
  | none, none => none

end Sys2Proof.Machine
end

