-- ==== Sys2Proof/Machine/Arithmetic.lean ====
section
/-! DEFINITION. Add, subtract, compare, increment, decrement (43_arithmetic.md). -/

namespace Sys2Proof.Machine

/-- An ALU result written to A and to N, V, Z, C; D and I kept (43_arithmetic.md R153). -/
def State.setAlu (r : AluResult) (st : State) : State :=
  (st.setA r.r).setStatus { st.p with n := r.n, v := r.v, z := r.z, c := r.c }

/-- The addition of a byte to A, in the arithmetic D selects (43_arithmetic.md R153). -/
def addToA (m : Byte) (st : State) : State :=
  st.setAlu (if st.p.d then addDec st.a m st.p.c else addBin st.a m st.p.c)

/-- The subtraction of a byte from A, in the arithmetic D selects (43_arithmetic.md R156). -/
def subFromA (m : Byte) (st : State) : State :=
  st.setAlu (if st.p.d then subDec st.a m st.p.c else subBin st.a m st.p.c)

/-- A compare of a register's byte with an operand: C by the unsigned comparison, N and Z from the wrapped difference
(43_arithmetic.md R158). -/
def compareByte (r m : Byte) (st : State) : State := (st.setFlag .c (decide (m.toNat ≤ r.toNat))).setNZ (r - m)

/-- ADC (R153). -/
def execAdc (m : LoadMode) (st : State) : Result := .next (addToA (load m st) st)

/-- SBC (R156). -/
def execSbc (m : LoadMode) (st : State) : Result := .next (subFromA (load m st) st)

/-- CMP (R158). -/
def execCmp (m : LoadMode) (st : State) : Result := .next (compareByte st.a (load m st) st)

/-- CPX (R159). -/
def execCpx (m : LoadMode) (st : State) : Result := .next (compareByte st.x (load m st) st)

/-- CPY (R160). -/
def execCpy (m : LoadMode) (st : State) : Result := .next (compareByte st.y (load m st) st)

/-- INC (R161): N and Z from the byte written back. -/
def execInc (m : MemMode) (st : State) : Result :=
  let (r, st') := modify (fun v => v + 1) m st
  .next (st'.setNZ r)

/-- DEC (R162). -/
def execDec (m : MemMode) (st : State) : Result :=
  let (r, st') := modify (fun v => v - 1) m st
  .next (st'.setNZ r)

/-- INX (R163). -/
def execInx (st : State) : Result := .next ((st.setX (st.x + 1)).setNZ (st.x + 1))

/-- INY (R164). -/
def execIny (st : State) : Result := .next ((st.setY (st.y + 1)).setNZ (st.y + 1))

/-- DEX (R165). -/
def execDex (st : State) : Result := .next ((st.setX (st.x - 1)).setNZ (st.x - 1))

/-- DEY (R166). -/
def execDey (st : State) : Result := .next ((st.setY (st.y - 1)).setNZ (st.y - 1))

end Sys2Proof.Machine
end

