-- ==== Sys2Proof/Machine/ControlFlow.lean ====
section
/-! DEFINITION. Branches, jumps, subroutines (45_control_flow.md). -/

namespace Sys2Proof.Machine

/-- The operation of a conditional branch: PC to the target if the tested flag is as required, else PC stays at the
byte after the branch (45_control_flow.md R200). -/
def branch (b : Branch) (st : State) : State := if b.taken st then st.setPC (branchTarget b.op1 st) else st

/-- BCC (R201): taken if C is 0. -/
def execBcc (op1 : Byte) (st : State) : Result := .next (branch { flag := .c, want := false, op1 := op1 } st)

/-- BCS (R202): taken if C is 1. -/
def execBcs (op1 : Byte) (st : State) : Result := .next (branch { flag := .c, want := true, op1 := op1 } st)

/-- BEQ (R203): taken if Z is 1. -/
def execBeq (op1 : Byte) (st : State) : Result := .next (branch { flag := .z, want := true, op1 := op1 } st)

/-- BNE (R204): taken if Z is 0. -/
def execBne (op1 : Byte) (st : State) : Result := .next (branch { flag := .z, want := false, op1 := op1 } st)

/-- BMI (R205): taken if N is 1. -/
def execBmi (op1 : Byte) (st : State) : Result := .next (branch { flag := .n, want := true, op1 := op1 } st)

/-- BPL (R206): taken if N is 0. -/
def execBpl (op1 : Byte) (st : State) : Result := .next (branch { flag := .n, want := false, op1 := op1 } st)

/-- BVC (R207): taken if V is 0. -/
def execBvc (op1 : Byte) (st : State) : Result := .next (branch { flag := .v, want := false, op1 := op1 } st)

/-- BVS (R208): taken if V is 1. -/
def execBvs (op1 : Byte) (st : State) : Result := .next (branch { flag := .v, want := true, op1 := op1 } st)

/-- JMP, Absolute (R210). -/
def execJmp (op1 op2 : Byte) (st : State) : Result := .next (st.setPC (word op2 op1))

/-- JMP, Absolute indirect (R211). -/
def execJmpIndirect (op1 op2 : Byte) (st : State) : Result := .next (st.setPC (indirectTarget op1 op2 st))

/-- JSR (R212): pushes the address of its own last byte, then jumps. -/
def execJsr (op1 op2 : Byte) (st : State) : Result := .next ((pushWord (st.pc - 1) st).setPC (word op2 op1))

/-- RTS (R213): pops low, then high, and adds one. -/
def execRts (st : State) : Result :=
  let st1 := popMove st
  let st2 := popMove st1
  .next (st2.setPC (word (popByte st1) (popByte st) + 1))

end Sys2Proof.Machine
end

