-- ==== Sys2Proof/Machine/LoadStore.lean ====
section
/-! DEFINITION. Load, store and register-transfer instructions (42_load_store_transfer.md). Every meaning here and in
the other families is the *Operation* of its rule, run with PC already past the instruction. -/

namespace Sys2Proof.Machine

/-- LDA (R130): `A <- Load(m); SetNZ(A)`. -/
def execLda (m : LoadMode) (st : State) : Result := .next ((st.setA (load m st)).setNZ (load m st))

/-- LDX (R131): `X <- Load(m); SetNZ(X)`. -/
def execLdx (m : LoadMode) (st : State) : Result := .next ((st.setX (load m st)).setNZ (load m st))

/-- LDY (R132): `Y <- Load(m); SetNZ(Y)`. -/
def execLdy (m : LoadMode) (st : State) : Result := .next ((st.setY (load m st)).setNZ (load m st))

/-- STA (R133): `Store(m, A)`. -/
def execSta (m : MemMode) (st : State) : Result := .next (store m st.a st)

/-- STX (R134): `Store(m, X)`. -/
def execStx (m : MemMode) (st : State) : Result := .next (store m st.x st)

/-- STY (R135): `Store(m, Y)`. -/
def execSty (m : MemMode) (st : State) : Result := .next (store m st.y st)

/-- TAX (R137): `X <- A; SetNZ(X)`. -/
def execTax (st : State) : Result := .next ((st.setX st.a).setNZ st.a)

/-- TAY (R138): `Y <- A; SetNZ(Y)`. -/
def execTay (st : State) : Result := .next ((st.setY st.a).setNZ st.a)

/-- TXA (R139): `A <- X; SetNZ(A)`. -/
def execTxa (st : State) : Result := .next ((st.setA st.x).setNZ st.x)

/-- TYA (R140): `A <- Y; SetNZ(A)`. -/
def execTya (st : State) : Result := .next ((st.setA st.y).setNZ st.y)

/-- TSX (R141): `X <- S; SetNZ(X)`. -/
def execTsx (st : State) : Result := .next ((st.setX st.s).setNZ st.s)

/-- TXS (R142): `S <- X`, no flag. -/
def execTxs (st : State) : Result := .next (st.setS st.x)

end Sys2Proof.Machine
end

