-- ==== Sys2Proof/Machine/Logic.lean ====
section
/-! DEFINITION. Logic, bit test, shifts and rotates (44_logic_shift.md). -/

namespace Sys2Proof.Machine

/-- `A <- A & v; SetNZ(A)` (44_logic_shift.md R180). -/
def andWithA (v : Byte) (st : State) : State := (st.setA (st.a &&& v)).setNZ (st.a &&& v)

/-- `A <- A | v; SetNZ(A)` (44_logic_shift.md R181). -/
def orWithA (v : Byte) (st : State) : State := (st.setA (st.a ||| v)).setNZ (st.a ||| v)

/-- `A <- A ^ v; SetNZ(A)` (44_logic_shift.md R182). -/
def eorWithA (v : Byte) (st : State) : State := (st.setA (st.a ^^^ v)).setNZ (st.a ^^^ v)

/-- A shift of a memory byte: the result stored back, C the bit shifted out, N and Z not yet written. Gives the
result and the state (44_logic_shift.md R184, R185; 41_addressing_modes.md R116). -/
def shiftMem (f : Byte → Bool → ShiftResult) (m : MemMode) (st : State) : Byte × State :=
  let ea := address m st
  let sh := f (st.mem.read ea) st.p.c
  (sh.r, (st.writeByte ea sh.r).setFlag .c sh.c)

/-- A shift through either kind of operand, with N and Z from the result (44_logic_shift.md R184, R185). -/
def shift (f : Byte → Bool → ShiftResult) (m : RmwMode) (st : State) : State :=
  match m with
  | .accumulator => ((st.setA (f st.a st.p.c).r).setFlag .c (f st.a st.p.c).c).setNZ (f st.a st.p.c).r
  | .mem m =>
    let (r, st') := shiftMem f m st
    st'.setNZ r

/-- AND (R180). -/
def execAnd (m : LoadMode) (st : State) : Result := .next (andWithA (load m st) st)

/-- ORA (R181). -/
def execOra (m : LoadMode) (st : State) : Result := .next (orWithA (load m st) st)

/-- EOR (R182). -/
def execEor (m : LoadMode) (st : State) : Result := .next (eorWithA (load m st) st)

/-- BIT (R183): N and V from bits 7 and 6 of the operand, Z from `A & M`. -/
def execBit (m : MemMode) (st : State) : Result :=
  let v := load (.mem m) st
  .next (st.setStatus { st.p with n := bit v 7, v := bit v 6, z := (st.a &&& v) == 0 })

/-- ASL (R185). -/
def execAsl (m : RmwMode) (st : State) : Result := .next (shift aslByte m st)

/-- LSR (R186). -/
def execLsr (m : RmwMode) (st : State) : Result := .next (shift lsrByte m st)

/-- ROL (R187). -/
def execRol (m : RmwMode) (st : State) : Result := .next (shift rolByte m st)

/-- ROR (R188). -/
def execRor (m : RmwMode) (st : State) : Result := .next (shift rorByte m st)

end Sys2Proof.Machine
end

