-- ==== Sys2Proof/Machine/System.lean ====
section
/-! DEFINITION. Stack, flag and system instructions (46_stack_flags_system.md). -/

namespace Sys2Proof.Machine

/-- PHA (R220). -/
def execPha (st : State) : Result := .next (push st.a st)

/-- PHP (R221): the pushed copy has B = 0. -/
def execPhp (st : State) : Result := .next (push (st.p.byte false) st)

/-- PLA (R222). -/
def execPla (st : State) : Result := .next (((popMove st).setA (popByte st)).setNZ (popByte st))

/-- PLP (R223): bits 5 and 4 of the popped byte are discarded. -/
def execPlp (st : State) : Result := .next ((popMove st).setStatus (Status.ofByte (popByte st)))

/-- CLC (R224). -/
def execClc (st : State) : Result := .next (st.setFlag .c false)

/-- SEC (R225). -/
def execSec (st : State) : Result := .next (st.setFlag .c true)

/-- CLI (R226). -/
def execCli (st : State) : Result := .next (st.setFlag .i false)

/-- SEI (R227). -/
def execSei (st : State) : Result := .next (st.setFlag .i true)

/-- CLD (R228). -/
def execCld (st : State) : Result := .next (st.setFlag .d false)

/-- SED (R229). -/
def execSed (st : State) : Result := .next (st.setFlag .d true)

/-- CLV (R230). -/
def execClv (st : State) : Result := .next (st.setFlag .v false)

/-- NOP (R231): nothing but the PC's advance, which the fetch has made. -/
def execNop (st : State) : Result := .next st

/-- BRK (R235): the stacked address skips one padding byte, the stacked B is 1, the vector is IRQ's. -/
def execBrk (st : State) : Result := .next (takeTrap (st.pc + 1) true irqVector st)

/-- RTI (R236). -/
def execRti (st : State) : Result := .next (returnFromTrap st)

end Sys2Proof.Machine
end

