-- ==== Sys2Proof/Machine/Undocumented.lean ====
section
/-! DEFINITION. The undocumented opcodes the spec populates (47_undocumented.md), and the absent slots. A combination
performs its memory operation, then the companion operation on A with the new byte, whose flag writes remain (R240). -/

namespace Sys2Proof.Machine

/-- SLO (R241): ASL memory, then ORA. -/
def execSlo (m : MemMode) (st : State) : Result :=
  let (r, st') := shiftMem aslByte m st
  .next (orWithA r st')

/-- RLA (R242): ROL memory, then AND. -/
def execRla (m : MemMode) (st : State) : Result :=
  let (r, st') := shiftMem rolByte m st
  .next (andWithA r st')

/-- SRE (R243): LSR memory, then EOR. -/
def execSre (m : MemMode) (st : State) : Result :=
  let (r, st') := shiftMem lsrByte m st
  .next (eorWithA r st')

/-- RRA (R244): ROR memory, then ADC with the bit rotated out as carry-in. -/
def execRra (m : MemMode) (st : State) : Result :=
  let (r, st') := shiftMem rorByte m st
  .next (addToA r st')

/-- DCP (R245): DEC memory, then CMP; the compare's N and Z remain. -/
def execDcp (m : MemMode) (st : State) : Result :=
  let (r, st') := modify (fun v => v - 1) m st
  .next (compareByte st'.a r st')

/-- ISC (R246): INC memory, then SBC with the carry from before. -/
def execIsc (m : MemMode) (st : State) : Result :=
  let (r, st') := modify (fun v => v + 1) m st
  .next (subFromA r st')

/-- LAX (R247): A and X both loaded; the address is formed with the old X. -/
def execLax (m : MemMode) (st : State) : Result :=
  let v := load (.mem m) st
  .next (((st.setA v).setX v).setNZ v)

/-- SAX (R248): `Store(m, A & X)`, no flag. -/
def execSax (m : MemMode) (st : State) : Result := .next (store m (st.a &&& st.x) st)

/-- ANC (R249): AND, and bit 7 of the result to C. Both slots act alike. -/
def execAnc (_slot op1 : Byte) (st : State) : Result :=
  .next ((andWithA op1 st).setFlag .c (bit (st.a &&& op1) 7))

/-- ALR (R250): AND, then LSR of the result. -/
def execAlr (op1 : Byte) (st : State) : Result :=
  let sh := lsrByte (st.a &&& op1) st.p.c
  .next (((st.setA sh.r).setFlag .c sh.c).setNZ sh.r)

/-- ARR (R251): AND, then ROR with the old carry; C is bit 6 of the result, V bit 6 xor bit 5; D is ignored. -/
def execArr (op1 : Byte) (st : State) : Result :=
  let r := (rorByte (st.a &&& op1) st.p.c).r
  .next ((((st.setA r).setNZ r).setFlag .c (bit r 6)).setFlag .v (bit r 6 ^^ bit r 5))

/-- XAA (R252): `A <- X & op1`; the old A takes no part. -/
def execXaa (op1 : Byte) (st : State) : Result := .next ((st.setA (st.x &&& op1)).setNZ (st.x &&& op1))

/-- SBC, the alias 0xEB (R253): as SBC Immediate, decimal mode included. -/
def execSbcAlias (op1 : Byte) (st : State) : Result := .next (subFromA (load (.immediate op1) st) st)

/-- DOP (R254): its operand byte is fetched and discarded; no effective address, no data access. -/
def execDop (_slot _op1 : Byte) (st : State) : Result := .next st

/-- TOP (R255): its operand bytes are fetched and discarded; no effective address, no data access. -/
def execTop (_slot _op1 _op2 : Byte) (st : State) : Result := .next st

/-- A byte of an absent slot (60_exceptions.md R272): the fault `UnknownOpcode` is recorded. -/
def execAbsent (slot : Byte) (st : State) : Result := .next (raiseUnknownOpcode slot st)

end Sys2Proof.Machine
end

