-- ==== Sys2Proof/Machine/Dispatch.lean ====
section
/-! DEFINITION. The meaning of each instruction, one arm a constructor: the operation its completing ExecuteFinal
invocation performs, with PC already past the instruction (00_scope.md R8; 40_sequencer.md R86). -/

namespace Sys2Proof.Machine

def exec (i : Instr) (s : State) : Host.Outcome State Fault Refusal :=
  match i with
  -- 42_load_store_transfer.md
  | .lda m => Sys2Proof.Machine.execLda m s
  | .ldx m => Sys2Proof.Machine.execLdx m s
  | .ldy m => Sys2Proof.Machine.execLdy m s
  | .sta m => Sys2Proof.Machine.execSta m s
  | .stx m => Sys2Proof.Machine.execStx m s
  | .sty m => Sys2Proof.Machine.execSty m s
  | .tax => Sys2Proof.Machine.execTax s
  | .tay => Sys2Proof.Machine.execTay s
  | .txa => Sys2Proof.Machine.execTxa s
  | .tya => Sys2Proof.Machine.execTya s
  | .tsx => Sys2Proof.Machine.execTsx s
  | .txs => Sys2Proof.Machine.execTxs s
  -- 43_arithmetic.md
  | .adc m => Sys2Proof.Machine.execAdc m s
  | .sbc m => Sys2Proof.Machine.execSbc m s
  | .cmp m => Sys2Proof.Machine.execCmp m s
  | .cpx m => Sys2Proof.Machine.execCpx m s
  | .cpy m => Sys2Proof.Machine.execCpy m s
  | .inc m => Sys2Proof.Machine.execInc m s
  | .dec m => Sys2Proof.Machine.execDec m s
  | .inx => Sys2Proof.Machine.execInx s
  | .iny => Sys2Proof.Machine.execIny s
  | .dex => Sys2Proof.Machine.execDex s
  | .dey => Sys2Proof.Machine.execDey s
  -- 44_logic_shift.md
  | .and m => Sys2Proof.Machine.execAnd m s
  | .ora m => Sys2Proof.Machine.execOra m s
  | .eor m => Sys2Proof.Machine.execEor m s
  | .bit m => Sys2Proof.Machine.execBit m s
  | .asl m => Sys2Proof.Machine.execAsl m s
  | .lsr m => Sys2Proof.Machine.execLsr m s
  | .rol m => Sys2Proof.Machine.execRol m s
  | .ror m => Sys2Proof.Machine.execRor m s
  -- 45_control_flow.md
  | .bcc op1 => Sys2Proof.Machine.execBcc op1 s
  | .bcs op1 => Sys2Proof.Machine.execBcs op1 s
  | .beq op1 => Sys2Proof.Machine.execBeq op1 s
  | .bne op1 => Sys2Proof.Machine.execBne op1 s
  | .bmi op1 => Sys2Proof.Machine.execBmi op1 s
  | .bpl op1 => Sys2Proof.Machine.execBpl op1 s
  | .bvc op1 => Sys2Proof.Machine.execBvc op1 s
  | .bvs op1 => Sys2Proof.Machine.execBvs op1 s
  | .jmp op1 op2 => Sys2Proof.Machine.execJmp op1 op2 s
  | .jmpIndirect op1 op2 => Sys2Proof.Machine.execJmpIndirect op1 op2 s
  | .jsr op1 op2 => Sys2Proof.Machine.execJsr op1 op2 s
  | .rts => Sys2Proof.Machine.execRts s
  -- 46_stack_flags_system.md
  | .pha => Sys2Proof.Machine.execPha s
  | .php => Sys2Proof.Machine.execPhp s
  | .pla => Sys2Proof.Machine.execPla s
  | .plp => Sys2Proof.Machine.execPlp s
  | .clc => Sys2Proof.Machine.execClc s
  | .sec => Sys2Proof.Machine.execSec s
  | .cli => Sys2Proof.Machine.execCli s
  | .sei => Sys2Proof.Machine.execSei s
  | .cld => Sys2Proof.Machine.execCld s
  | .sed => Sys2Proof.Machine.execSed s
  | .clv => Sys2Proof.Machine.execClv s
  | .nop => Sys2Proof.Machine.execNop s
  | .brk => Sys2Proof.Machine.execBrk s
  | .rti => Sys2Proof.Machine.execRti s
  -- 47_undocumented.md
  | .slo m => Sys2Proof.Machine.execSlo m s
  | .rla m => Sys2Proof.Machine.execRla m s
  | .sre m => Sys2Proof.Machine.execSre m s
  | .rra m => Sys2Proof.Machine.execRra m s
  | .dcp m => Sys2Proof.Machine.execDcp m s
  | .isc m => Sys2Proof.Machine.execIsc m s
  | .lax m => Sys2Proof.Machine.execLax m s
  | .sax m => Sys2Proof.Machine.execSax m s
  | .anc slot op1 => Sys2Proof.Machine.execAnc slot op1 s
  | .alr op1 => Sys2Proof.Machine.execAlr op1 s
  | .arr op1 => Sys2Proof.Machine.execArr op1 s
  | .xaa op1 => Sys2Proof.Machine.execXaa op1 s
  | .sbcAlias op1 => Sys2Proof.Machine.execSbcAlias op1 s
  | .dop slot op1 => Sys2Proof.Machine.execDop slot op1 s
  | .top slot op1 op2 => Sys2Proof.Machine.execTop slot op1 op2 s
  -- 60_exceptions.md R272: a byte of an absent slot, whose fetch is the fault UnknownOpcode
  | .absent slot => Sys2Proof.Machine.execAbsent slot s

end Sys2Proof.Machine
end

