-- ==== Sys2Proof/Machine/Sequencer.lean ====
section
/-! DEFINITION. The sequencer (40_sequencer.md): the tick, R81 to R91, and the instruction-level step, R94. Both take
the level of the `halt` input; what the host does in between is HostPort.lean's. -/

namespace Sys2Proof.Machine

/-! ### Parts both use -/

/-- A tick that does nothing but set its outputs: halted (40_sequencer.md R82) or faulted (R83). -/
def idle (error : Option UnknownOpcode) (st : State) : State := { st with completed := false, error := error }

/-- The three bytes at PC and after it; an instruction is at most so long (30_encoding.md R60). -/
def fetchBytes (st : State) : List Byte :=
  [st.mem.read st.pc, st.mem.read (st.pc + 1), st.mem.read (st.pc + 2)]

/-- What the FetchOpcode tick reads and latches: the opcode byte, then as many operand bytes as it calls for; PC past
the bytes read. Of an absent slot only the opcode byte is read (40_sequencer.md R84; 60_exceptions.md R272). -/
def latch (st : State) : State :=
  let ir := st.mem.read st.pc
  let n := operandCount ir
  { st with
    ir := ir
    op1 := if 1 ≤ n then st.mem.read (st.pc + 1) else st.op1
    op2 := if 2 ≤ n then st.mem.read (st.pc + 2) else st.op2
    pc := st.pc + 1 + BitVec.ofNat 16 n }

/-- The instruction latched at fetch, from the latched bytes (10_state.md R27). -/
def latched (st : State) : Instr := decodeOp st.ir st.op1 st.op2

/-- The rest of the FetchOpcode tick, for a populated slot: `ctx` cleared, `wait` loaded, one cycle counted
(40_sequencer.md R84). -/
def beginInstr (st : State) : State :=
  { st with
    ctx := { stall := 0, ea := none }
    wait := nominalCycles st.ir - 2
    seq := if nominalCycles st.ir - 2 = 0 then .executeFinal else .waitCycles
    cycles := st.cycles + 1
    completed := false
    error := none }

/-- The ticks an interrupt service takes (40_sequencer.md R88; 70_reset_and_hazards.md R313). -/
def serviceTicks : Nat := 7

/-- A service selected at the boundary (40_sequencer.md R88). -/
def startService (k : Interrupt) (st : State) : State :=
  { st with seq := .serviceInterrupt, svc := k, wait := serviceTicks }

/-- `BoundaryCheck()`: NMI if pending, else IRQ if pending and I is clear, else the next fetch
(40_sequencer.md R88). -/
def boundaryCheck (st : State) : State :=
  if st.nmiPending then startService .nmi st
  else if st.irqPending && !st.p.i then startService .irq st
  else { st with seq := .fetchOpcode }

/-- The end of the tick that has performed an instruction's operation: the boundary check and `completed = 1`
(40_sequencer.md R86, R90), or, where the operation raised the fault, `completed = 0` and `error` (60_exceptions.md
R272). -/
def conclude (st : State) : State :=
  match st.fault with
  | some f => idle (some f) st
  | none => boundaryCheck { st with completed := true, error := none }

/-- An instruction's operation and the end of its tick. -/
def complete (i : Instr) (st : State) : Result := andThen (exec i st) fun st' => .next (conclude st')

/-- The last tick of a service: the entry, then FetchOpcode with no second boundary check; `completed = 1`
(40_sequencer.md R89, R90). -/
def enterService (st : State) : State :=
  { interruptEntry st.svc st with seq := .fetchOpcode, completed := true, error := none }

/-! ### The tick -/

/-- The FetchOpcode tick (40_sequencer.md R84). A fetch of an absent slot performs its whole meaning, the fault, in
this tick, counts no cycle and leaves `seq` at FetchOpcode (60_exceptions.md R272). -/
def fetchTick (st : State) : Result :=
  let l := latch st
  if (latched l).isAbsent then complete (latched l) l else .next (beginInstr l)

/-- The WaitCycles tick (40_sequencer.md R85). -/
def waitTick (st : State) : State :=
  { st with
    wait := st.wait - 1
    seq := if st.wait - 1 = 0 then .executeFinal else .waitCycles
    cycles := st.cycles + 1
    completed := false
    error := none }

/-- `ctx` after a "not completed" invocation: the address latched by the first (40_sequencer.md R86). -/
def stallCtx (i : Instr) (st : State) : Ctx :=
  { stall := st.ctx.stall + 1, ea := if st.ctx.stall = 0 then effectiveAddress i st else st.ctx.ea }

/-- The ExecuteFinal tick (40_sequencer.md R86). -/
def executeTick (st : State) : Result :=
  let i := latched st
  let counted := { st with cycles := st.cycles + 1 }
  if st.ctx.stall < stallsNeeded i st then
    .next { counted with ctx := stallCtx i st, completed := false, error := none }
  else complete i counted

/-- The ServiceInterrupt tick (40_sequencer.md R89). -/
def serviceTick (st : State) : State :=
  let counted := { st with wait := st.wait - 1, cycles := st.cycles + 1 }
  if 0 < counted.wait then { counted with completed := false, error := none } else enterService counted

/-- One tick at a level of `halt`. The halt check comes before everything else, the fault check next
(40_sequencer.md R82, R83). -/
def tick (halt : Bool) (st : State) : Result :=
  if halt then .next (idle none st)
  else
    match st.fault with
    | some f => .next (idle (some f) st)
    | none =>
      match st.seq with
      | .fetchOpcode => fetchTick st
      | .waitCycles => .next (waitTick st)
      | .executeFinal => executeTick st
      | .serviceInterrupt => .next (serviceTick st)

/-- That many ticks with `halt = 0`, stopping at a stop. -/
def ticks : Nat → State → Result
  | 0, st => .next st
  | n + 1, st => andThen (tick false st) (ticks n)

/-! ### The instruction-level step -/

/-- `ctx` when the operation is performed: every stall the instruction needs has been made. -/
def stalledCtx (i : Instr) (st : State) : Ctx :=
  if st.ctx.stall < stallsNeeded i st then
    { stall := stallsNeeded i st, ea := if st.ctx.stall = 0 then effectiveAddress i st else st.ctx.ea }
  else st.ctx

/-- The state in which the completing tick performs the operation of the instruction in progress: the rest of its
ticks counted (40_sequencer.md R94). -/
def readyToExecute (st : State) : State :=
  let i := latched st
  { st with
    wait := 0
    seq := .executeFinal
    ctx := stalledCtx i st
    cycles := st.cycles + st.wait + (stallsNeeded i st - st.ctx.stall) + 1 }

/-- The rest of the instruction in progress, in one step. -/
def finishInstr (st : State) : Result := complete (latched st) (readyToExecute st)

/-- `StepInstruction` (40_sequencer.md R94): fetch, operation, cycles, boundary check. -/
def stepInstr (st : State) : Result :=
  let l := latch st
  if (latched l).isAbsent then complete (latched l) l else finishInstr (beginInstr l)

/-- `StepService` (40_sequencer.md R94): the rest of the service in one step. -/
def stepService (st : State) : State := enterService { st with wait := 0, cycles := st.cycles + st.wait }

/-- One step at a level of `halt`: a halted or faulted machine does nothing, as in a tick; otherwise one whole
instruction, one whole service, or the rest of the one in progress. -/
def stepAt (halt : Bool) (st : State) : Result :=
  if halt then .next (idle none st)
  else
    match st.fault with
    | some f => .next (idle (some f) st)
    | none =>
      match st.seq with
      | .fetchOpcode => stepInstr st
      | .waitCycles => finishInstr st
      | .executeFinal => finishInstr st
      | .serviceInterrupt => .next (stepService st)

end Sys2Proof.Machine
end

