-- ==== Sys2Proof/Machine/HostPort.lean ====
section
/-! DEFINITION. What the host does to the ports between ticks: reset, interrupt requests, debug writes
(40_sequencer.md R80, R92, R95; 70_reset_and_hazards.md R300), and the intervals it does it in (log 5). -/

namespace Sys2Proof.Machine

/-- The flags `RESET_REGS` gives. -/
def resetStatus (r : ResetRegs) : Status := { n := r.n, v := r.v, d := r.d, i := r.i, z := r.z, c := r.c }

/-- The reset action for a choice of `RESET_REGS` (70_reset_and_hazards.md R300). Memory is not written; the fields
the rule calls don't-care keep their values (log 9), and so do the outputs, since reset is no tick. -/
def applyReset (r : ResetRegs) (st : State) : State :=
  { st with
    pc := st.mem.read16 resetVector
    seq := .fetchOpcode
    nmiPending := false
    irqPending := false
    fault := none
    cycles := 0
    a := r.a
    x := r.x
    y := r.y
    s := r.s
    p := resetStatus r }

/-- A request event sets its pending bit, at any time; a second one is absorbed (40_sequencer.md R92). -/
def request (k : Interrupt) (st : State) : State :=
  match k with
  | .nmi => { st with nmiPending := true }
  | .irq => { st with irqPending := true }

/-- A debug write. One to P obeys `SetP` (40_sequencer.md R95). -/
def applyPoke (w : Poke) (st : State) : State :=
  match w with
  | .a v => st.setA v
  | .x v => st.setX v
  | .y v => st.setY v
  | .s v => st.setS v
  | .pc v => st.setPC v
  | .p v => st.setStatus (Status.ofByte v)
  | .mem addr v => st.writeByte addr v

/-- When a debug write has a defined effect: at FetchOpcode, or while faulted (40_sequencer.md R95). -/
def pokeAllowed (st : State) : Bool := decide (st.seq = .fetchOpcode) || st.fault.isSome

/-- One action of the host. A debug write at another time is refused (40_sequencer.md R95). -/
def hostAct (act : HostAction) (st : State) : Result :=
  match act with
  | .reset r => .next (applyReset r st)
  | .nmiReq => .next (request .nmi st)
  | .irqReq => .next (request .irq st)
  | .poke w => if pokeAllowed st then .next (applyPoke w st) else .refused .hostWriteMidInstruction

/-- The host's actions in order. -/
def hostActs : List HostAction → State → Result
  | [], st => .next st
  | act :: acts, st => andThen (hostAct act st) (hostActs acts)

/-- Run a tick or a step after the next interval of the host's input: its actions, then the tick at its level of
`halt`. When no interval is left the host does nothing and `halt` is 0. -/
def withInputs (run : Bool → State → Result) (st : State) : Result :=
  match st.inputs with
  | [] => run false st
  | iv :: rest => andThen (hostActs iv.actions { st with inputs := rest }) (run iv.halt)

/-- One tick of the whole machine, host included (40_sequencer.md R81). -/
def clock (st : State) : Result := withInputs tick st

/-- A table word's bytes stored where the next step fetches. Everything that makes the very next step a fetch is set:
FetchOpcode, no fault, no input of the host in between. -/
def placeFetchWord (st : State) (nbits w : Nat) : State :=
  let stored := (tableWordBytes nbits w).foldl
    (fun (acc : Memory × Word) v => (acc.1.write acc.2 v, acc.2 + 1)) (st.mem, st.pc)
  { st with mem := stored.1, seq := .fetchOpcode, fault := none, inputs := [] }

end Sys2Proof.Machine
end

