-- ==== Sys2Proof/Safety.lean ====
section
/-! DEFINITION. What claims speak of: runs and their end, the Faulted condition, the legal states of the sequencer, and
what an operation may write. -/

namespace Sys2Proof.Machine

/-- The Faulted condition (10_state.md R30). -/
def State.Faulted (st : State) : Prop := st.fault ≠ none

/-- An instruction boundary: the next tick fetches (00_scope.md R9; 40_sequencer.md R94). -/
def State.AtFetch (st : State) : Prop := st.seq = .fetchOpcode ∧ st.fault = none

/-- The instruction that stands at PC, with the operand bytes that a fetch would latch. -/
def State.fetched (st : State) : Instr := latched (latch st)

/-- Whether a request of a kind is pending (10_state.md R29). -/
def State.pending (st : State) : Interrupt → Bool
  | .nmi => st.nmiPending
  | .irq => st.irqPending

/-- The states the sequencer can stand in (10_state.md R25 to R30): in WaitCycles a populated instruction has ticks
left and has not stalled; in ExecuteFinal none is left, it has made no more stalls than it needs, and after the first
`ctx.ea` holds its address; in ServiceInterrupt one to seven ticks are left and the request is still pending; the
Faulted condition stands at FetchOpcode. -/
def State.LegalSequencer (st : State) : Prop :=
  match st.seq with
  | .fetchOpcode => True
  | .waitCycles =>
    st.fault = none ∧ (latched st).isAbsent = false ∧ 1 ≤ st.wait ∧ st.wait ≤ 6 ∧ st.ctx = { stall := 0, ea := none }
  | .executeFinal =>
    st.fault = none ∧ (latched st).isAbsent = false ∧ st.wait = 0 ∧ st.ctx.stall ≤ stallsNeeded (latched st) st ∧
      (1 ≤ st.ctx.stall → st.ctx.ea = effectiveAddress (latched st) st)
  | .serviceInterrupt => st.fault = none ∧ 1 ≤ st.wait ∧ st.wait ≤ serviceTicks ∧ st.pending st.svc = true

/-- The machine's invariant: memory in its canonical form, the sequencer in a legal state. -/
def State.Sound (st : State) : Prop := st.mem.wf = true ∧ st.LegalSequencer

/-- One state follows another in some number of steps. -/
inductive Reaches : State → State → Prop where
  | refl (st : State) : Reaches st st
  | step (st t u : State) : Reaches st t → Sys2Proof.Machine.step t = .next u → Reaches st u

/-- A safe run: no state on the way from a state is Faulted (60_exceptions.md R272 calls the fault fatal). -/
def State.Safe (st : State) : Prop := ∀ t, Reaches st t → ¬ t.Faulted

/-- The end of a run, as this model states it: an instruction boundary at which PC is the address the host calls final.
A boundary has no fault recorded, so the Faulted condition is never final (40_sequencer.md R96; log 23). -/
def State.FinishedAt (final : Word) (st : State) : Prop := st.AtFetch ∧ st.pc = final

/-- A run from a state comes to its end. -/
def State.FinishesAt (final : Word) (st : State) : Prop := ∃ t, Reaches st t ∧ t.FinishedAt final

/-- What the host still does contains no reset, the only way out of the Faulted condition (70_reset_and_hazards.md
R301). -/
def State.NoResetToCome (st : State) : Prop := ∀ iv ∈ st.inputs, ∀ r, HostAction.reset r ∉ iv.actions

/-- Memory after differs from memory before in one byte (20_memory.md R41). -/
def StoresByte (st t : State) (a : Word) (v : Byte) : Prop :=
  ∀ b : Word, t.mem.read b = if b = a then v else st.mem.read b

/-- Memory after differs from memory before in two bytes. -/
def StoresTwo (st t : State) (a1 : Word) (v1 : Byte) (a2 : Word) (v2 : Byte) : Prop :=
  ∀ b : Word, t.mem.read b = if b = a1 then v1 else if b = a2 then v2 else st.mem.read b

/-- Memory after differs from memory before in three bytes. -/
def StoresThree (st t : State) (a1 : Word) (v1 : Byte) (a2 : Word) (v2 : Byte) (a3 : Word) (v3 : Byte) : Prop :=
  ∀ b : Word, t.mem.read b = if b = a1 then v1 else if b = a2 then v2 else if b = a3 then v3 else st.mem.read b

/-- What a compare of a register's byte with an operand leaves: only N, Z and C are written; C says the register is not
below the operand, Z that they are equal, N is bit 7 of the wrapped difference (43_arithmetic.md R158). -/
def Compared (st t : State) (r m : Byte) : Prop :=
  t = { st with p := { st.p with n := t.p.n, z := t.p.z, c := t.p.c } } ∧
  (t.p.c = true ↔ m.toNat ≤ r.toNat) ∧ (t.p.z = true ↔ r = m) ∧
  (t.p.n = true ↔ 128 ≤ (r.toNat + 256 - m.toNat) % 256)

/-- What a shift or rotate of a byte through one kind of operand leaves besides the result's own place: N, Z and C
(44_logic_shift.md R184). -/
def shiftedStatus (p : Status) (sh : ShiftResult) : Status :=
  { p with n := sh.r.getLsbD 7, z := decide (sh.r = 0), c := sh.c }

/-- The *Operands* and *Encoding* lines of an instruction's rule: each mode of the table has its opcode byte, and no
other mode has one. -/
def Encodes {α : Type} (f : α → Instr) (mode : α → Mode) (table : List (Mode × Byte)) : Prop :=
  ∀ m : α, (f m).opcode = table.lookup (mode m)

/-- An instruction's row of the table of 70_reset_and_hazards.md R310: each mode it has with its nominal count, and no
other mode with one. -/
def Takes {α : Type} (f : α → Instr) (mode : α → Mode) (table : List (Mode × Nat)) : Prop :=
  ∀ m : α, (f m).opcode.map nominalCycles = table.lookup (mode m)

/-- The *Encoding* and *Nominal cycles* of an instruction with one form. -/
def Timed (i : Instr) (op : Byte) (n : Nat) : Prop := i.opcode = some op ∧ nominalCycles op = n

/-- The state no instruction's operation writes (10_state.md R24 lists what one may write): sequencer, latches,
context, pending bits, cycles, outputs, parameters, inputs. -/
def SameUnit (st t : State) : Prop :=
  t.seq = st.seq ∧ t.wait = st.wait ∧ t.ir = st.ir ∧ t.op1 = st.op1 ∧ t.op2 = st.op2 ∧ t.ctx = st.ctx ∧
  t.nmiPending = st.nmiPending ∧ t.irqPending = st.irqPending ∧ t.svc = st.svc ∧ t.cycles = st.cycles ∧
  t.completed = st.completed ∧ t.error = st.error ∧ t.params = st.params ∧ t.inputs = st.inputs

/-- What an instruction may write besides flags (the middle column of the table in 10_state.md R24). -/
inductive Place where
  | a | x | y | s | pc | mem | fault
deriving DecidableEq, Repr

/-- The registers and memory an instruction writes, PC's advance at fetch apart (10_state.md R24; an absent slot's
fault, 60_exceptions.md R272). -/
def writtenPlaces : Instr → List Place
  | .lda _ | .txa | .tya | .adc _ | .sbc _ | .and _ | .ora _ | .eor _ => [.a]
  | .ldx _ | .tax | .tsx | .inx | .dex => [.x]
  | .ldy _ | .tay | .iny | .dey => [.y]
  | .sta _ | .stx _ | .sty _ | .sax _ => [.mem]
  | .txs => [.s]
  | .cmp _ | .cpx _ | .cpy _ | .bit _ => []
  | .inc _ | .dec _ | .dcp _ => [.mem]
  | .asl .accumulator | .lsr .accumulator | .rol .accumulator | .ror .accumulator => [.a]
  | .asl (.mem _) | .lsr (.mem _) | .rol (.mem _) | .ror (.mem _) => [.mem]
  | .bcc _ | .bcs _ | .beq _ | .bne _ | .bmi _ | .bpl _ | .bvc _ | .bvs _ => [.pc]
  | .jmp _ _ | .jmpIndirect _ _ => [.pc]
  | .jsr _ _ => [.pc, .s, .mem]
  | .rts => [.pc, .s]
  | .pha | .php => [.s, .mem]
  | .pla => [.a, .s]
  | .plp => [.s]
  | .clc | .sec | .cli | .sei | .cld | .sed | .clv | .nop => []
  | .brk => [.pc, .s, .mem]
  | .rti => [.pc, .s]
  | .slo _ | .rla _ | .sre _ | .rra _ | .isc _ => [.a, .mem]
  | .lax _ => [.a, .x]
  | .anc _ _ | .alr _ | .arr _ | .xaa _ | .sbcAlias _ => [.a]
  | .dop _ _ | .top _ _ _ => []
  | .absent _ => [.fault]

/-- The addresses of the bytes an instruction stores: the effective address of a storing form, the stack locations a push
names (10_state.md R24; 20_memory.md R46). -/
def writtenAddresses (i : Instr) (st : State) : List Word :=
  match i with
  | .sta m | .stx m | .sty m | .sax m | .inc m | .dec m => [address m st]
  | .slo m | .rla m | .sre m | .rra m | .dcp m | .isc m => [address m st]
  | .asl (.mem m) | .lsr (.mem m) | .rol (.mem m) | .ror (.mem m) => [address m st]
  | .pha | .php => [stackAddr st.s]
  | .jsr _ _ => [stackAddr st.s, stackAddr (st.s - 1)]
  | .brk => [stackAddr st.s, stackAddr (st.s - 1), stackAddr (st.s - 2)]
  | .asl .accumulator | .lsr .accumulator | .rol .accumulator | .ror .accumulator => []
  | .lda _ | .ldx _ | .ldy _ | .lax _ => []
  | .tax | .tay | .txa | .tya | .tsx | .txs | .inx | .iny | .dex | .dey => []
  | .adc _ | .sbc _ | .cmp _ | .cpx _ | .cpy _ | .and _ | .ora _ | .eor _ | .bit _ => []
  | .bcc _ | .bcs _ | .beq _ | .bne _ | .bmi _ | .bpl _ | .bvc _ | .bvs _ => []
  | .jmp _ _ | .jmpIndirect _ _ | .rts | .rti | .pla | .plp | .nop => []
  | .clc | .sec | .cli | .sei | .cld | .sed | .clv => []
  | .anc _ _ | .alr _ | .arr _ | .xaa _ | .sbcAlias _ | .dop _ _ | .top _ _ _ | .absent _ => []

/-- The flags an instruction writes (the third column of the table in 10_state.md R24). -/
def writtenFlags : Instr → List FlagName
  | .lda _ | .ldx _ | .ldy _ | .tax | .tay | .txa | .tya | .tsx => [.n, .z]
  | .sta _ | .stx _ | .sty _ | .txs => []
  | .adc _ | .sbc _ => [.n, .v, .z, .c]
  | .cmp _ | .cpx _ | .cpy _ => [.n, .z, .c]
  | .inc _ | .dec _ | .inx | .iny | .dex | .dey => [.n, .z]
  | .and _ | .ora _ | .eor _ => [.n, .z]
  | .bit _ => [.n, .v, .z]
  | .asl _ | .lsr _ | .rol _ | .ror _ => [.n, .z, .c]
  | .bcc _ | .bcs _ | .beq _ | .bne _ | .bmi _ | .bpl _ | .bvc _ | .bvs _ => []
  | .jmp _ _ | .jmpIndirect _ _ | .jsr _ _ | .rts | .pha | .php => []
  | .pla => [.n, .z]
  | .plp | .rti => [.n, .v, .d, .i, .z, .c]
  | .clc | .sec => [.c]
  | .cli | .sei | .brk => [.i]
  | .cld | .sed => [.d]
  | .clv => [.v]
  | .nop => []
  | .slo _ | .rla _ | .sre _ | .dcp _ => [.n, .z, .c]
  | .rra _ | .isc _ => [.n, .v, .z, .c]
  | .lax _ => [.n, .z]
  | .sax _ => []
  | .anc _ _ | .alr _ => [.n, .z, .c]
  | .arr _ | .sbcAlias _ => [.n, .v, .z, .c]
  | .xaa _ => [.n, .z]
  | .dop _ _ | .top _ _ _ | .absent _ => []

/-- The instructions whose final PC is not the byte after them (10_state.md R15). -/
def changesFlow (i : Instr) : Bool := (writtenPlaces i).contains .pc

end Sys2Proof.Machine
end

