-- ==== Sys2Proof/Certificates/Slice0/Obligations.lean ====
section
/-! DEFINITION. The statements for the provers. `exec` is an instruction's operation with PC already past it; a record
update that names the fields written says that every other field of the state is as before. -/

open Sys2Proof Sys2Proof.Machine

/-! ### Encoding -/

/-- Encoding a well-formed instruction, every operand at every value, and decoding what comes out gives it back, whatever
bytes follow (30_encoding.md R60 to R64). -/
def Obligations.DecodeOfEncodeIsTheInstruction : Prop :=
  ∀ i : Instr, i.wellFormed = true →
    ∃ bytes, encode i = some bytes ∧ ∀ rest, decode (bytes ++ rest) = .ok (i, rest)

/-- What the decoder reads is well-formed, and its encoding is exactly the bytes read: two byte strings never decode to
one instruction, and no bit is dropped (30_encoding.md R60 to R64). -/
def Obligations.EncodeOfDecodeIsTheBytesRead : Prop :=
  ∀ (bytes rest : List Byte) (i : Instr), decode bytes = .ok (i, rest) →
    i.wellFormed = true ∧ ∃ read, encode i = some read ∧ bytes = read ++ rest

/-- The opcode bytes with no table entry are these 26, and every other opcode byte, with every value of its operand
bytes, is a well-formed instruction with that opcode (30_encoding.md R63, R66). That exactly these slots are absent is
the spec's own decision D6 (log 12), the opcode matrix its general knowledge (log 7). -/
def Obligations.AbsentSlotsAreTheTwentySix : Prop :=
  ∀ op l h : Byte,
    ((decodeOp op l h).isAbsent = true ↔
      op ∈ ([0x02, 0x12, 0x22, 0x32, 0x42, 0x52, 0x62, 0x72, 0x92, 0xB2, 0xD2, 0xF2,
             0x1A, 0x3A, 0x5A, 0x7A, 0xDA, 0xFA, 0x93, 0x9F, 0x9B, 0x9C, 0x9E, 0xAB, 0xBB, 0xCB] : List Byte)) ∧
    (decodeOp op l h).wellFormed = true ∧ (decodeOp op l h).opcode = some op

/-- The first byte alone fixes how many operand bytes follow, none, one or two, and any values of them are accepted
(30_encoding.md R60, R61, R66). That the absent bytes are absent is the spec's own decision D6 (log 12), that such a
byte is an instruction of one byte the model's choice (log 8). -/
def Obligations.FirstByteFixesTheLength : Prop :=
  ∀ op : Byte, ∃ n, n ≤ 2 ∧ ∀ operands rest : List Byte, operands.length = n →
    ∃ i, decode (op :: operands ++ rest) = .ok (i, rest) ∧ i.operandBytes = operands ∧ i.length = 1 + n

/-- Words written out from the spec decode to the instructions they stand for, one or more of each family
(30_encoding.md R64, R68). The opcode matrix is the spec's general knowledge (log 7), the last word's absence its
decision D6 (log 12), that an absent byte is an instruction the model's choice (log 8). -/
def Obligations.WordsWrittenOutDecode : Prop :=
  decode [0xA9, 0x01] = .ok (.lda (.immediate 0x01), []) ∧
  decode [0x8D, 0x20, 0xD0] = .ok (.sta (.absolute 0x20 0xD0), []) ∧
  decode [0x9A] = .ok (.txs, []) ∧
  decode [0x7D, 0xFF, 0x20] = .ok (.adc (.mem (.absoluteX 0xFF 0x20)), []) ∧
  decode [0x46, 0x10] = .ok (.lsr (.mem (.zeropage 0x10)), []) ∧
  decode [0x2A] = .ok (.rol .accumulator, []) ∧
  decode [0xD0, 0xFD] = .ok (.bne 0xFD, []) ∧
  decode [0x6C, 0x34, 0x12] = .ok (.jmpIndirect 0x34 0x12, []) ∧
  decode [0x20, 0x34, 0x12] = .ok (.jsr 0x34 0x12, []) ∧
  decode [0x00, 0xFF] = .ok (.brk, [0xFF]) ∧
  decode [0x40] = .ok (.rti, []) ∧
  decode [0xE3, 0x10] = .ok (.isc (.indexedIndirect 0x10), []) ∧
  decode [0xB7, 0x10] = .ok (.lax (.zeropageY 0x10), []) ∧
  decode [0x02, 0xA9] = .ok (.absent 0x02, [0xA9])

/-! ### Memory, the stack, addressing -/

/-- Two memories in canonical form that read alike at every address are one memory (the model's representation,
20_memory.md R41; log 20). -/
def Obligations.CanonicalMemoriesAreEqualIfTheyReadAlike : Prop :=
  ∀ m m' : Memory, m.wf = true → m'.wf = true → (∀ a : Word, m.read a = m'.read a) → m = m'

/-- A word is the byte at its address and, eight bits up, the byte at the next address modulo 65536; in page zero the
next address wraps within the page or not, as the parameter says (20_memory.md R43, R44). The wrap at the top of
memory is the spec's own inference in R43, the parameter its decision D16 (log 3). -/
def Obligations.WordsLieLittleEndian : Prop :=
  (∀ (m : Memory) (a : Word),
    (m.read16 a).toNat = (m.get a.toNat).toNat + 256 * (m.get ((a.toNat + 1) % 65536)).toNat) ∧
  (∀ (z : Byte) (st : State),
    (read16ZP z st).toNat = (st.mem.get z.toNat).toNat +
      256 * (st.mem.get (if st.params.zpPtrWrap then (z.toNat + 1) % 256 else z.toNat + 1)).toNat)

/-- Push writes at `0x0100 + S` and then decrements; pop increments and then reads at `0x0100 + S`; S wraps modulo 256;
a byte just pushed is the byte popped (10_state.md R14). -/
def Obligations.StackWritesThenDecrements : Prop :=
  ∀ (v : Byte) (st : State),
    (push v st = { st with mem := (push v st).mem, s := (push v st).s } ∧
      (push v st).s.toNat = (st.s.toNat + 255) % 256 ∧
      ∀ b : Word, (push v st).mem.read b = if b.toNat = 0x100 + st.s.toNat then v else st.mem.read b) ∧
    (popMove st = { st with s := (popMove st).s } ∧
      (popMove st).s.toNat = (st.s.toNat + 1) % 256 ∧
      popByte st = st.mem.get (0x100 + (popMove st).s.toNat)) ∧
    popByte (push v st) = v ∧ (popMove (push v st)).s = st.s

/-- The effective address of each memory mode, and its page crossing, which only three modes can have
(41_addressing_modes.md R105 to R110, R112, R113, R115). Rests on the spec's own decision D16 (log 3) for a pointer at
0x00FF. The wrap at the top of memory is its own inference in R109, that the three modes alone pay its decision D17
(log 12). -/
def Obligations.EffectiveAddressesOfTheMemoryModes : Prop :=
  ∀ (op1 op2 : Byte) (st : State),
    let base := op1.toNat + 256 * op2.toNat
    let pointer := fun z : Nat => (st.mem.get z).toNat +
      256 * (st.mem.get (if st.params.zpPtrWrap then (z + 1) % 256 else z + 1)).toNat
    (address (.zeropage op1) st).toNat = op1.toNat ∧
    (address (.zeropageX op1) st).toNat = (op1.toNat + st.x.toNat) % 256 ∧
    (address (.zeropageY op1) st).toNat = (op1.toNat + st.y.toNat) % 256 ∧
    (address (.absolute op1 op2) st).toNat = base ∧
    (address (.absoluteX op1 op2) st).toNat = (base + st.x.toNat) % 65536 ∧
    (address (.absoluteY op1 op2) st).toNat = (base + st.y.toNat) % 65536 ∧
    (address (.indexedIndirect op1) st).toNat = pointer ((op1.toNat + st.x.toNat) % 256) ∧
    (address (.indirectIndexed op1) st).toNat = (pointer op1.toNat + st.y.toNat) % 65536 ∧
    pageCrossed (.absoluteX op1 op2) st = decide (op1.toNat + st.x.toNat > 0xFF) ∧
    pageCrossed (.absoluteY op1 op2) st = decide (op1.toNat + st.y.toNat > 0xFF) ∧
    pageCrossed (.indirectIndexed op1) st = decide (pointer op1.toNat % 256 + st.y.toNat > 0xFF) ∧
    pageCrossed (.zeropage op1) st = false ∧ pageCrossed (.zeropageX op1) st = false ∧
    pageCrossed (.zeropageY op1) st = false ∧ pageCrossed (.absolute op1 op2) st = false ∧
    pageCrossed (.indexedIndirect op1) st = false

/-- The carry out of the low byte is the same as the effective address lying in another page than the base
(41_addressing_modes.md R115, the two readings of `PageCrossed`). The scope of the crossing is the spec's own decision
D17 (log 12). -/
def Obligations.PageCrossedIffThePageChanges : Prop :=
  ∀ (m : MemMode) (st : State) (base : Word) (idx : Byte), indexed m st = some (base, idx) →
    (pageCrossed m st = true ↔ (address m st).toNat / 256 ≠ base.toNat / 256)

/-- A branch's target is the address of the byte after the branch plus the signed displacement, modulo 65536
(41_addressing_modes.md R114). That it wraps is the spec's own inference in R114 and its decision D30 (log 12). -/
def Obligations.BranchTargetIsSignedFromTheNextByte : Prop :=
  ∀ (op1 : Byte) (st : State),
    ((branchTarget op1 st).toNat : Int) =
      ((st.pc.toNat : Int) + (if op1.toNat < 128 then (op1.toNat : Int) else (op1.toNat : Int) - 256)) % 65536

/-! ### Load, store, transfer -/

/-- The opcode of every form; LDA, LDX, LDY and LAX write the byte loaded to their register (LAX to both) and N and Z from it, and nothing else
(42_load_store_transfer.md R130 to R132; 47_undocumented.md R247). -/
def Obligations.LoadsWriteTheRegisterAndNZ : Prop :=
  Encodes Instr.lda LoadMode.mode
    (accumulatorModes.zip [0xA9, 0xA5, 0xB5, 0xAD, 0xBD, 0xB9, 0xA1, 0xB1]) ∧
  Encodes Instr.ldx LoadMode.mode
    [(.immediate, 0xA2), (.zeropage, 0xA6), (.zeropageY, 0xB6), (.absolute, 0xAE), (.absoluteY, 0xBE)] ∧
  Encodes Instr.ldy LoadMode.mode
    [(.immediate, 0xA0), (.zeropage, 0xA4), (.zeropageX, 0xB4), (.absolute, 0xAC), (.absoluteX, 0xBC)] ∧
  Encodes Instr.lax MemMode.mode
    [(.zeropage, 0xA7), (.zeropageY, 0xB7), (.absolute, 0xAF), (.absoluteY, 0xBF), (.indexedIndirect, 0xA3),
     (.indirectIndexed, 0xB3)] ∧
  [0xA7, 0xB7, 0xAF, 0xBF, 0xA3, 0xB3].map nominalCycles = [3, 4, 4, 4, 6, 5] ∧
  ∀ st : State,
    (∀ op1, load (.immediate op1) st = op1) ∧ (∀ m, load (.mem m) st = st.mem.read (address m st)) ∧
    (∀ m, exec (.lda m) st = .next { st with
      a := load m st, p := { st.p with n := (load m st).getLsbD 7, z := decide (load m st = 0) } }) ∧
    (∀ m, exec (.ldx m) st = .next { st with
      x := load m st, p := { st.p with n := (load m st).getLsbD 7, z := decide (load m st = 0) } }) ∧
    (∀ m, exec (.ldy m) st = .next { st with
      y := load m st, p := { st.p with n := (load m st).getLsbD 7, z := decide (load m st = 0) } }) ∧
    (∀ m, let v := st.mem.read (address m st)
      exec (.lax m) st = .next { st with
        a := v, x := v, p := { st.p with n := v.getLsbD 7, z := decide (v = 0) } })

/-- A transfer copies one register to another and sets N and Z from the byte, TXS no flag
(42_load_store_transfer.md R137 to R142). -/
def Obligations.TransfersCopyARegister : Prop :=
  [Instr.tax, .tay, .txa, .tya, .tsx, .txs].map Instr.opcode = [0xAA, 0xA8, 0x8A, 0x98, 0xBA, 0x9A].map some ∧
  ∀ st : State,
    exec .tax st = .next { st with x := st.a, p := { st.p with n := st.a.getLsbD 7, z := decide (st.a = 0) } } ∧
    exec .tay st = .next { st with y := st.a, p := { st.p with n := st.a.getLsbD 7, z := decide (st.a = 0) } } ∧
    exec .txa st = .next { st with a := st.x, p := { st.p with n := st.x.getLsbD 7, z := decide (st.x = 0) } } ∧
    exec .tya st = .next { st with a := st.y, p := { st.p with n := st.y.getLsbD 7, z := decide (st.y = 0) } } ∧
    exec .tsx st = .next { st with x := st.s, p := { st.p with n := st.s.getLsbD 7, z := decide (st.s = 0) } } ∧
    exec .txs st = .next { st with s := st.x }

/-- STA, STX, STY and SAX store A, X, Y and `A & X` at the effective address; every other byte of memory, every
register and every flag is unchanged (42_load_store_transfer.md R133 to R135; 47_undocumented.md R248). -/
def Obligations.StoresWriteExactlyOneByte : Prop :=
  Encodes Instr.sta MemMode.mode
    [(.zeropage, 0x85), (.zeropageX, 0x95), (.absolute, 0x8D), (.absoluteX, 0x9D), (.absoluteY, 0x99),
     (.indexedIndirect, 0x81), (.indirectIndexed, 0x91)] ∧
  Encodes Instr.stx MemMode.mode [(.zeropage, 0x86), (.zeropageY, 0x96), (.absolute, 0x8E)] ∧
  Encodes Instr.sty MemMode.mode [(.zeropage, 0x84), (.zeropageX, 0x94), (.absolute, 0x8C)] ∧
  Encodes Instr.sax MemMode.mode
    [(.zeropage, 0x87), (.zeropageY, 0x97), (.absolute, 0x8F), (.indexedIndirect, 0x83)] ∧
  [0x87, 0x97, 0x8F, 0x83].map nominalCycles = [3, 4, 4, 6] ∧
  ∀ (m : MemMode) (st : State),
    (∃ t, exec (.sta m) st = .next t ∧ t = { st with mem := t.mem } ∧ StoresByte st t (address m st) st.a) ∧
    (∃ t, exec (.stx m) st = .next t ∧ t = { st with mem := t.mem } ∧ StoresByte st t (address m st) st.x) ∧
    (∃ t, exec (.sty m) st = .next t ∧ t = { st with mem := t.mem } ∧ StoresByte st t (address m st) st.y) ∧
    (∃ t, exec (.sax m) st = .next t ∧ t = { st with mem := t.mem } ∧ StoresByte st t (address m st) (st.a &&& st.x))

/-! ### The ALU -/

/-- Binary addition: result and carry are the exact nine-bit sum, Z and N are of its low byte, V is the document's
formula, and the carry differs from the document's comparison `r < A` exactly when `m = 0xFF` with carry-in
(43_arithmetic.md R151). The carry is the spec's own decision D11 (log 12). -/
def Obligations.BinaryAdditionIsTheExactSum : Prop :=
  ∀ (a m : Byte) (c : Bool),
    let t := addBin a m c
    let sum := a.toNat + m.toNat + c.toNat
    t.r.toNat + 256 * t.c.toNat = sum ∧
    (t.z = true ↔ sum % 256 = 0) ∧ (t.n = true ↔ 128 ≤ sum % 256) ∧
    (t.v = true ↔ (a ^^^ t.r) &&& (m ^^^ t.r) &&& 0x80#8 ≠ 0#8) ∧
    (t.c ≠ decide (t.r.toNat < a.toNat) ↔ m = 0xFF#8 ∧ c = true)

/-- Binary subtraction: result and borrow are the exact difference `a - m - (1 - c)`, C is no borrow, Z and N are of the
result, V is the document's formula; and all of it equals adding the complement (43_arithmetic.md R155). The last
clause is the spec's own inference in R155. -/
def Obligations.BinarySubtractionIsTheExactDifference : Prop :=
  ∀ (a m : Byte) (c : Bool),
    let t := subBin a m c
    let d : Int := (a.toNat : Int) - m.toNat - (1 - c.toNat)
    (t.r.toNat : Int) - 256 * (1 - (t.c.toNat : Int)) = d ∧
    (t.z = true ↔ d % 256 = 0) ∧ (t.n = true ↔ 128 ≤ d % 256) ∧
    (t.v = true ↔ (a ^^^ t.r) &&& (a ^^^ m) &&& 0x80#8 ≠ 0#8) ∧
    t = addBin a (m ^^^ 0xFF#8) c

/-- V says that the exact sum, or difference, of the two's-complement readings lies outside -128..127
(43_arithmetic.md R152). This reading of the flag is the spec's own inference in R152. -/
def Obligations.OverflowFlagIsSignedOverflow : Prop :=
  ∀ (a m : Byte) (c : Bool),
    ((addBin a m c).v = true ↔
      ¬ (-128 ≤ a.toInt + m.toInt + (c.toNat : Int) ∧ a.toInt + m.toInt + (c.toNat : Int) ≤ 127)) ∧
    ((subBin a m c).v = true ↔
      ¬ (-128 ≤ a.toInt - m.toInt - (1 - (c.toNat : Int)) ∧ a.toInt - m.toInt - (1 - (c.toNat : Int)) ≤ 127))

/-- For operands that are valid BCD, decimal addition gives the two decimal digits of the decimal sum, C says that it
reaches 100, and N, V, Z are those of the binary sum (43_arithmetic.md R154). The algorithm's details are the spec's
own decision D12 (log 12). -/
def Obligations.DecimalAdditionOfValidDigits : Prop :=
  ∀ (a m : Byte) (c : Bool), a.toNat / 16 ≤ 9 → a.toNat % 16 ≤ 9 → m.toNat / 16 ≤ 9 → m.toNat % 16 ≤ 9 →
    let t := addDec a m c
    let dec := fun b : Byte => 10 * (b.toNat / 16) + b.toNat % 16
    let sum := dec a + dec m + c.toNat
    t.r.toNat / 16 ≤ 9 ∧ t.r.toNat % 16 ≤ 9 ∧ dec t.r = sum % 100 ∧ (t.c = true ↔ 100 ≤ sum) ∧
    t.n = (addBin a m c).n ∧ t.v = (addBin a m c).v ∧ t.z = (addBin a m c).z

/-- For operands that are valid BCD, decimal subtraction gives the two decimal digits of the decimal difference modulo
100, C says that no decimal borrow occurred, and N, V, Z are those of the binary subtraction (43_arithmetic.md R157).
That all four flags come from the binary subtraction, and the algorithm's details, are the spec's own decision D13
(log 12). -/
def Obligations.DecimalSubtractionOfValidDigits : Prop :=
  ∀ (a m : Byte) (c : Bool), a.toNat / 16 ≤ 9 → a.toNat % 16 ≤ 9 → m.toNat / 16 ≤ 9 → m.toNat % 16 ≤ 9 →
    let t := subDec a m c
    let dec := fun b : Byte => 10 * (b.toNat / 16) + b.toNat % 16
    let diff : Int := (dec a : Int) - dec m - (1 - c.toNat)
    t.r.toNat / 16 ≤ 9 ∧ t.r.toNat % 16 ≤ 9 ∧ (dec t.r : Int) = diff % 100 ∧ (t.c = true ↔ 0 ≤ diff) ∧
    t.c = (subBin a m c).c ∧ t.n = (subBin a m c).n ∧ t.v = (subBin a m c).v ∧ t.z = (subBin a m c).z

/-- ADC, SBC and the SBC alias write A and N, V, Z, C from the arithmetic D selects, and nothing else; D and I stay
(43_arithmetic.md R153, R156; 47_undocumented.md R253). -/
def Obligations.AddAndSubtractWriteAAndFourFlags : Prop :=
  Encodes Instr.adc LoadMode.mode
    (accumulatorModes.zip [0x69, 0x65, 0x75, 0x6D, 0x7D, 0x79, 0x61, 0x71]) ∧
  Encodes Instr.sbc LoadMode.mode
    (accumulatorModes.zip [0xE9, 0xE5, 0xF5, 0xED, 0xFD, 0xF9, 0xE1, 0xF1]) ∧
  (∀ op1, (Instr.sbcAlias op1).opcode = some 0xEB) ∧
  ∀ st : State,
    (∀ m, let t := if st.p.d then addDec st.a (load m st) st.p.c else addBin st.a (load m st) st.p.c
      exec (.adc m) st = .next { st with a := t.r, p := { st.p with n := t.n, v := t.v, z := t.z, c := t.c } }) ∧
    (∀ m, let t := if st.p.d then subDec st.a (load m st) st.p.c else subBin st.a (load m st) st.p.c
      exec (.sbc m) st = .next { st with a := t.r, p := { st.p with n := t.n, v := t.v, z := t.z, c := t.c } }) ∧
    (∀ op1, exec (.sbcAlias op1) st = exec (.sbc (.immediate op1)) st) ∧
    (∀ op1, let t := if st.p.d then subDec st.a op1 st.p.c else subBin st.a op1 st.p.c
      exec (.sbcAlias op1) st = .next { st with a := t.r, p := { st.p with n := t.n, v := t.v, z := t.z, c := t.c } })

/-- CMP, CPX, CPY write N, Z, C and nothing else: C is "register not below operand", Z "equal", N bit 7 of the wrapped
difference (43_arithmetic.md R158 to R160). -/
def Obligations.ComparesWriteOnlyNZC : Prop :=
  Encodes Instr.cmp LoadMode.mode
    (accumulatorModes.zip [0xC9, 0xC5, 0xD5, 0xCD, 0xDD, 0xD9, 0xC1, 0xD1]) ∧
  Encodes Instr.cpx LoadMode.mode [(.immediate, 0xE0), (.zeropage, 0xE4), (.absolute, 0xEC)] ∧
  Encodes Instr.cpy LoadMode.mode [(.immediate, 0xC0), (.zeropage, 0xC4), (.absolute, 0xCC)] ∧
  ∀ (m : LoadMode) (st : State),
    (∃ t, exec (.cmp m) st = .next t ∧ Compared st t st.a (load m st)) ∧
    (∃ t, exec (.cpx m) st = .next t ∧ Compared st t st.x (load m st)) ∧
    (∃ t, exec (.cpy m) st = .next t ∧ Compared st t st.y (load m st))

/-- INC and DEC replace the byte at the effective address by its successor or predecessor modulo 256 and set N and Z
from it; C and V, every register and every other byte stay (43_arithmetic.md R161, R162). -/
def Obligations.IncrementAndDecrementMemory : Prop :=
  Encodes Instr.inc MemMode.mode
    [(.zeropage, 0xE6), (.zeropageX, 0xF6), (.absolute, 0xEE), (.absoluteX, 0xFE)] ∧
  Encodes Instr.dec MemMode.mode
    [(.zeropage, 0xC6), (.zeropageX, 0xD6), (.absolute, 0xCE), (.absoluteX, 0xDE)] ∧
  ∀ (m : MemMode) (st : State),
    let v := st.mem.read (address m st)
    (∃ t r, exec (.inc m) st = .next t ∧ r.toNat = (v.toNat + 1) % 256 ∧ StoresByte st t (address m st) r ∧
      t = { st with mem := t.mem, p := { st.p with n := decide (128 ≤ r.toNat), z := decide (r.toNat = 0) } }) ∧
    (∃ t r, exec (.dec m) st = .next t ∧ r.toNat = (v.toNat + 255) % 256 ∧ StoresByte st t (address m st) r ∧
      t = { st with mem := t.mem, p := { st.p with n := decide (128 ≤ r.toNat), z := decide (r.toNat = 0) } })

/-- INX, INY, DEX, DEY step X or Y modulo 256 and set N and Z from it; nothing else changes
(43_arithmetic.md R163 to R166). -/
def Obligations.IncrementAndDecrementIndexRegisters : Prop :=
  [Instr.inx, .iny, .dex, .dey].map Instr.opcode = [0xE8, 0xC8, 0xCA, 0x88].map some ∧
  ∀ st : State,
    (∃ r : Byte, r.toNat = (st.x.toNat + 1) % 256 ∧ exec .inx st = .next { st with
      x := r, p := { st.p with n := decide (128 ≤ r.toNat), z := decide (r.toNat = 0) } }) ∧
    (∃ r : Byte, r.toNat = (st.y.toNat + 1) % 256 ∧ exec .iny st = .next { st with
      y := r, p := { st.p with n := decide (128 ≤ r.toNat), z := decide (r.toNat = 0) } }) ∧
    (∃ r : Byte, r.toNat = (st.x.toNat + 255) % 256 ∧ exec .dex st = .next { st with
      x := r, p := { st.p with n := decide (128 ≤ r.toNat), z := decide (r.toNat = 0) } }) ∧
    (∃ r : Byte, r.toNat = (st.y.toNat + 255) % 256 ∧ exec .dey st = .next { st with
      y := r, p := { st.p with n := decide (128 ≤ r.toNat), z := decide (r.toNat = 0) } })

/-- AND, ORA, EOR write A bit by bit and N and Z from it; BIT writes N and V from bits 7 and 6 of the operand and Z from
`A & M`, and not A; nothing else changes (44_logic_shift.md R180 to R183). -/
def Obligations.LogicAndBitTest : Prop :=
  Encodes Instr.and LoadMode.mode
    (accumulatorModes.zip [0x29, 0x25, 0x35, 0x2D, 0x3D, 0x39, 0x21, 0x31]) ∧
  Encodes Instr.ora LoadMode.mode
    (accumulatorModes.zip [0x09, 0x05, 0x15, 0x0D, 0x1D, 0x19, 0x01, 0x11]) ∧
  Encodes Instr.eor LoadMode.mode
    (accumulatorModes.zip [0x49, 0x45, 0x55, 0x4D, 0x5D, 0x59, 0x41, 0x51]) ∧
  Encodes Instr.bit MemMode.mode [(.zeropage, 0x24), (.absolute, 0x2C)] ∧
  ∀ st : State,
    (∀ m, ∃ r : Byte, (∀ k, r.getLsbD k = (st.a.getLsbD k && (load m st).getLsbD k)) ∧
      exec (.and m) st = .next { st with
        a := r, p := { st.p with n := decide (128 ≤ r.toNat), z := decide (r.toNat = 0) } }) ∧
    (∀ m, ∃ r : Byte, (∀ k, r.getLsbD k = (st.a.getLsbD k || (load m st).getLsbD k)) ∧
      exec (.ora m) st = .next { st with
        a := r, p := { st.p with n := decide (128 ≤ r.toNat), z := decide (r.toNat = 0) } }) ∧
    (∀ m, ∃ r : Byte, (∀ k, r.getLsbD k = (st.a.getLsbD k ^^ (load m st).getLsbD k)) ∧
      exec (.eor m) st = .next { st with
        a := r, p := { st.p with n := decide (128 ≤ r.toNat), z := decide (r.toNat = 0) } }) ∧
    (∀ m, let v := st.mem.read (address m st)
      exec (.bit m) st = .next { st with
        p := { st.p with n := v.getLsbD 7, v := v.getLsbD 6, z := decide (st.a &&& v = 0) } })

/-- The four shift functions as arithmetic: the bit shifted out is C, zero enters for ASL and LSR and the old C for ROL
and ROR; each instruction writes the result to A or back to the one byte of memory, and N, Z, C; V and everything else
stay (44_logic_shift.md R184 to R188). -/
def Obligations.ShiftsAndRotates : Prop :=
  Encodes Instr.asl RmwMode.mode (shiftModes.zip [0x0A, 0x06, 0x16, 0x0E, 0x1E]) ∧
  Encodes Instr.lsr RmwMode.mode (shiftModes.zip [0x4A, 0x46, 0x56, 0x4E, 0x5E]) ∧
  Encodes Instr.rol RmwMode.mode (shiftModes.zip [0x2A, 0x26, 0x36, 0x2E, 0x3E]) ∧
  Encodes Instr.ror RmwMode.mode (shiftModes.zip [0x6A, 0x66, 0x76, 0x6E, 0x7E]) ∧
  (∀ (v : Byte) (c : Bool),
    2 * v.toNat = 256 * (aslByte v c).c.toNat + (aslByte v c).r.toNat ∧
    v.toNat = 2 * (lsrByte v c).r.toNat + (lsrByte v c).c.toNat ∧
    2 * v.toNat + c.toNat = 256 * (rolByte v c).c.toNat + (rolByte v c).r.toNat ∧
    v.toNat + 256 * c.toNat = 2 * (rorByte v c).r.toNat + (rorByte v c).c.toNat) ∧
  (∀ (st : State), ∀ e ∈ [(Instr.asl, aslByte), (Instr.lsr, lsrByte), (Instr.rol, rolByte), (Instr.ror, rorByte)],
    exec (e.1 .accumulator) st = .next { st with
      a := (e.2 st.a st.p.c).r, p := shiftedStatus st.p (e.2 st.a st.p.c) } ∧
    ∀ m, ∃ t, let sh := e.2 (st.mem.read (address m st)) st.p.c
      exec (e.1 (.mem m)) st = .next t ∧ StoresByte st t (address m st) sh.r ∧
      t = { st with mem := t.mem, p := shiftedStatus st.p sh })

/-! ### Control flow -/

/-- Each conditional branch tests its flag for its required state; if it holds PC becomes the target, else PC stays at
the byte after the branch; nothing else changes; and the extra ticks are 0, 1 or 2 (45_control_flow.md R200 to R208).
The page compared and the wrap are the spec's own decisions D25 and D30 (log 12). -/
def Obligations.BranchesTestOneFlag : Prop :=
  ∀ (op1 : Byte) (st : State), ∀ e ∈
    [(Instr.bcc op1, (0x90 : Byte), FlagName.c, false), (Instr.bcs op1, 0xB0, FlagName.c, true),
     (Instr.beq op1, 0xF0, FlagName.z, true), (Instr.bne op1, 0xD0, FlagName.z, false),
     (Instr.bmi op1, 0x30, FlagName.n, true), (Instr.bpl op1, 0x10, FlagName.n, false),
     (Instr.bvc op1, 0x50, FlagName.v, false), (Instr.bvs op1, 0x70, FlagName.v, true)],
    Timed e.1 e.2.1 2 ∧
    exec e.1 st = .next (if st.p.get e.2.2.1 = e.2.2.2 then { st with pc := branchTarget op1 st } else st) ∧
    stallsNeeded e.1 st =
      (if st.p.get e.2.2.1 ≠ e.2.2.2 then 0
       else if (branchTarget op1 st).toNat / 256 = st.pc.toNat / 256 then 1 else 2)

/-- JMP sets PC to its operand, JMP indirect to the word at its operand, whose high byte lies at the next address, or
with the page-wrap parameter in the same page; nothing else changes (45_control_flow.md R210, R211;
41_addressing_modes.md R111). The pointer's high byte is the spec's own decision D15 (log 3). -/
def Obligations.JumpsWriteOnlyPC : Prop :=
  ∀ (op1 op2 : Byte) (st : State),
    let operand := op1.toNat + 256 * op2.toNat
    let high := if st.params.jmpIndPageWrap then operand / 256 * 256 + (operand + 1) % 256 else (operand + 1) % 65536
    Timed (.jmp op1 op2) 0x4C 3 ∧ Timed (.jmpIndirect op1 op2) 0x6C 5 ∧
    (∃ w : Word, exec (.jmp op1 op2) st = .next { st with pc := w } ∧ w.toNat = operand) ∧
    (∃ w : Word, exec (.jmpIndirect op1 op2) st = .next { st with pc := w } ∧
      w.toNat = (st.mem.get operand).toNat + 256 * (st.mem.get high).toNat)

/-- JSR pushes the address of its last byte, high byte first, and jumps; two bytes of memory, S and PC change and
nothing else (45_control_flow.md R212). -/
def Obligations.JsrPushesTheReturnAddressLessOne : Prop :=
  ∀ (op1 op2 : Byte) (st : State), Timed (.jsr op1 op2) 0x20 6 ∧ ∃ (t : State) (target : Word),
    exec (.jsr op1 op2) st = .next t ∧ target.toNat = op1.toNat + 256 * op2.toNat ∧
    t = { st with mem := t.mem, s := st.s - 2, pc := target } ∧
    StoresTwo st t (stackAddr st.s) (hi (st.pc - 1)) (stackAddr (st.s - 1)) (lo (st.pc - 1))

/-- RTS pops low then high and adds one, and writes only PC and S; after a JSR, wherever the subroutine has gone, it
comes back to the byte after the JSR with S as before, only the two bytes below S changed (45_control_flow.md R213). -/
def Obligations.RtsReturnsBehindTheJsr : Prop :=
  Timed .rts 0x60 6 ∧ ∀ st : State,
    (exec .rts st = .next { st with
      s := st.s + 2
      pc := word (st.mem.read (stackAddr (st.s + 2))) (st.mem.read (stackAddr (st.s + 1))) + 1 }) ∧
    ∀ (op1 op2 : Byte) (pc : Word), ∃ t u,
      exec (.jsr op1 op2) st = .next t ∧ exec .rts { t with pc := pc } = .next u ∧
      u = { st with mem := t.mem } ∧
      StoresTwo st u (stackAddr st.s) (hi (st.pc - 1)) (stackAddr (st.s - 1)) (lo (st.pc - 1))

/-! ### Stack, flags, traps -/

/-- PHA pushes A, PHP the status byte with bit 5 set and B clear; one byte of memory and S change, no flag
(46_stack_flags_system.md R220, R221). Bits 5 and 4 are the spec's own decision D20 (log 12). -/
def Obligations.PushesStoreOneByte : Prop :=
  Timed .pha 0x48 3 ∧ Timed .php 0x08 3 ∧ ∀ st : State,
    (∃ t, exec .pha st = .next t ∧ t = { st with mem := t.mem, s := st.s - 1 } ∧
      StoresByte st t (stackAddr st.s) st.a) ∧
    (∃ t, exec .php st = .next t ∧ t = { st with mem := t.mem, s := st.s - 1 } ∧
      StoresByte st t (stackAddr st.s) (st.p.byte false) ∧
      (t.mem.read (stackAddr st.s)).getLsbD 5 = true ∧ (t.mem.read (stackAddr st.s)).getLsbD 4 = false)

/-- PLA loads A from the stack with N and Z; PLP loads the six flags and discards bits 5 and 4; S steps up and memory
stays (46_stack_flags_system.md R222, R223). Bits 5 and 4 are the spec's own decision D20 (log 12). -/
def Obligations.PullsReadOneByte : Prop :=
  Timed .pla 0x68 4 ∧ Timed .plp 0x28 4 ∧ ∀ st : State,
    let v := st.mem.read (stackAddr (st.s + 1))
    exec .pla st = .next { st with
      a := v, s := st.s + 1, p := { st.p with n := v.getLsbD 7, z := decide (v = 0) } } ∧
    exec .plp st = .next { st with
      s := st.s + 1
      p := { n := v.getLsbD 7, v := v.getLsbD 6, d := v.getLsbD 3, i := v.getLsbD 2, z := v.getLsbD 1,
             c := v.getLsbD 0 } }

/-- The byte image of P, bit by bit, and its way back: bits 5 and 4 of a byte loaded into P are discarded, so that a
live P read out has bit 5 set and B as asked for (10_state.md R16, R18, R19). That bits 5 and 4 are discarded is the
spec's own inference in R19 and its decision D20 (log 12). -/
def Obligations.StatusByteLayout : Prop :=
  (∀ (p : Status) (b : Bool),
    (p.byte b).toNat = 128 * p.n.toNat + 64 * p.v.toNat + 32 + 16 * b.toNat + 8 * p.d.toNat + 4 * p.i.toNat +
      2 * p.z.toNat + p.c.toNat ∧
    Status.ofByte (p.byte b) = p) ∧
  (∀ (v : Byte) (b : Bool) (k : Nat), ((Status.ofByte v).byte b).getLsbD k =
    if k = 5 then true else if k = 4 then b else v.getLsbD k)

/-- Each flag instruction writes its one flag and nothing else; NOP, DOP and TOP write nothing, and DOP and TOP never
stall (46_stack_flags_system.md R224 to R231; 47_undocumented.md R254, R255). The names DOP and TOP, and that they
access nothing and never stall, are the spec's own decisions D7, D17 and D18 (log 12). -/
def Obligations.FlagInstructionsAndNoOperations : Prop :=
  (∀ e ∈ [(Instr.clc, (0x18 : Byte)), (Instr.sec, 0x38), (Instr.cli, 0x58), (Instr.sei, 0x78), (Instr.cld, 0xD8),
          (Instr.sed, 0xF8), (Instr.clv, 0xB8), (Instr.nop, 0xEA)], Timed e.1 e.2 2) ∧
  (∀ op1 slot, (slot ∈ ([0x80, 0x82, 0x89, 0xC2, 0xE2] : List Byte) → Timed (.dop slot op1) slot 2) ∧
    (slot ∈ ([0x04, 0x44, 0x64] : List Byte) → Timed (.dop slot op1) slot 3) ∧
    (slot ∈ ([0x14, 0x34, 0x54, 0x74, 0xD4, 0xF4] : List Byte) → Timed (.dop slot op1) slot 4)) ∧
  (∀ op1 op2 slot, slot ∈ ([0x0C, 0x1C, 0x3C, 0x5C, 0x7C, 0xDC, 0xFC] : List Byte) →
    Timed (.top slot op1 op2) slot 4) ∧
  ∀ st : State,
    exec .clc st = .next { st with p := { st.p with c := false } } ∧
    exec .sec st = .next { st with p := { st.p with c := true } } ∧
    exec .cli st = .next { st with p := { st.p with i := false } } ∧
    exec .sei st = .next { st with p := { st.p with i := true } } ∧
    exec .cld st = .next { st with p := { st.p with d := false } } ∧
    exec .sed st = .next { st with p := { st.p with d := true } } ∧
    exec .clv st = .next { st with p := { st.p with v := false } } ∧
    exec .nop st = .next st ∧
    (∀ slot op1, exec (.dop slot op1) st = .next st ∧ stallsNeeded (.dop slot op1) st = 0) ∧
    (∀ slot op1 op2, exec (.top slot op1 op2) st = .next st ∧ stallsNeeded (.top slot op1 op2) st = 0)

/-- BRK pushes the address two past its own, high byte first, then the status byte with B set and I as it was; sets I;
takes PC from the IRQ vector as memory then stands; three bytes of memory, S, I and PC change and nothing else
(46_stack_flags_system.md R235). The return address, I and D are the spec's own decision D14 (log 12). -/
def Obligations.BrkTakesTheTrap : Prop :=
  Timed .brk 0x00 7 ∧ ∀ st : State, ∃ t, exec .brk st = .next t ∧
    StoresThree st t (stackAddr st.s) (hi (st.pc + 1)) (stackAddr (st.s - 1)) (lo (st.pc + 1))
      (stackAddr (st.s - 2)) (st.p.byte true) ∧
    t = { st with
      mem := t.mem, s := st.s - 3, p := { st.p with i := true }
      pc := word (t.mem.read 0xFFFF) (t.mem.read 0xFFFE) }

/-- RTI pops P, bits 5 and 4 discarded, then PC low, then PC high, with no adjustment; memory and everything else stay
(46_stack_flags_system.md R236). Bits 5 and 4 are the spec's own decision D20 (log 12). -/
def Obligations.RtiRestoresPThenPC : Prop :=
  Timed .rti 0x40 6 ∧ ∀ st : State,
    exec .rti st = .next { st with
      s := st.s + 3
      p := Status.ofByte (st.mem.read (stackAddr (st.s + 1)))
      pc := word (st.mem.read (stackAddr (st.s + 3))) (st.mem.read (stackAddr (st.s + 2))) }

/-- RTI undoes a trap's entry wherever the handler has gone: P and S come back, PC after an interrupt exactly and
after a BRK one further, and the stack bytes stay written (46_stack_flags_system.md R237). R237 is the spec's own
inference; that PC comes back one further after a BRK rests on its decision D14 (log 12). -/
def Obligations.RtiUndoesTheEntry : Prop :=
  ∀ (st : State) (pc : Word),
    (∃ t, exec .brk st = .next t ∧
      exec .rti { t with pc := pc } = .next { st with mem := t.mem, pc := st.pc + 1 }) ∧
    (∀ k, exec .rti { interruptEntry k st with pc := pc } =
      .next (clearPending k { st with mem := (interruptEntry k st).mem }))

/-! ### Undocumented combinations -/

/-- SLO, RLA, SRE shift the byte in memory, then OR, AND or EOR the new byte into A; C is the bit shifted out, N and Z
are of the new A; nothing else changes (47_undocumented.md R241 to R243). -/
def Obligations.ShiftCombinations : Prop :=
  Encodes Instr.slo MemMode.mode (comboModes.zip [0x07, 0x17, 0x0F, 0x1F, 0x1B, 0x03, 0x13]) ∧
  Encodes Instr.rla MemMode.mode (comboModes.zip [0x27, 0x37, 0x2F, 0x3F, 0x3B, 0x23, 0x33]) ∧
  Encodes Instr.sre MemMode.mode (comboModes.zip [0x47, 0x57, 0x4F, 0x5F, 0x5B, 0x43, 0x53]) ∧
  ∀ (m : MemMode) (st : State), ∀ e ∈
    [(Instr.slo, aslByte, fun x y : Byte => x ||| y), (Instr.rla, rolByte, fun x y : Byte => x &&& y),
     (Instr.sre, lsrByte, fun x y : Byte => x ^^^ y)],
    ∃ t, let sh := e.2.1 (st.mem.read (address m st)) st.p.c
      let r := e.2.2 st.a sh.r
      exec (e.1 m) st = .next t ∧ StoresByte st t (address m st) sh.r ∧
      t = { st with
        mem := t.mem, a := r
        p := { st.p with n := decide (128 ≤ r.toNat), z := decide (r.toNat = 0), c := sh.c } }

/-- RRA rotates the byte in memory and adds the new byte to A with the bit rotated out as carry-in; ISC increments it
and subtracts the new byte from A with the old carry, both in the arithmetic D selects; DCP decrements it and compares
A with the new byte; nothing else changes (47_undocumented.md R244 to R246). That RRA and ISC honour D is the spec's
own decision D27 (log 12). -/
def Obligations.ArithmeticCombinations : Prop :=
  Encodes Instr.rra MemMode.mode (comboModes.zip [0x67, 0x77, 0x6F, 0x7F, 0x7B, 0x63, 0x73]) ∧
  Encodes Instr.dcp MemMode.mode (comboModes.zip [0xC7, 0xD7, 0xCF, 0xDF, 0xDB, 0xC3, 0xD3]) ∧
  Encodes Instr.isc MemMode.mode (comboModes.zip [0xE7, 0xF7, 0xEF, 0xFF, 0xFB, 0xE3, 0xF3]) ∧
  ∀ (m : MemMode) (st : State),
    let v := st.mem.read (address m st)
    (∃ t, let sh := rorByte v st.p.c
      let r := if st.p.d then addDec st.a sh.r sh.c else addBin st.a sh.r sh.c
      exec (.rra m) st = .next t ∧ StoresByte st t (address m st) sh.r ∧
      t = { st with mem := t.mem, a := r.r, p := { st.p with n := r.n, v := r.v, z := r.z, c := r.c } }) ∧
    (∃ t w, exec (.dcp m) st = .next t ∧ w.toNat = (v.toNat + 255) % 256 ∧ StoresByte st t (address m st) w ∧
      Compared { st with mem := t.mem } t st.a w) ∧
    (∃ t w, exec (.isc m) st = .next t ∧ w.toNat = (v.toNat + 1) % 256 ∧ StoresByte st t (address m st) w ∧
      let r := if st.p.d then subDec st.a w st.p.c else subBin st.a w st.p.c
      t = { st with mem := t.mem, a := r.r, p := { st.p with n := r.n, v := r.v, z := r.z, c := r.c } })

/-- ANC, ALR, ARR, XAA as arithmetic on `A & op1` (`X & op1` for XAA), with their flags; nothing else changes
(47_undocumented.md R249 to R252). The flags of ARR and XAA are the spec's own decision D19 (log 12). -/
def Obligations.ImmediateCombinations : Prop :=
  (∀ op1 : Byte, (Instr.anc 0x0B op1).opcode = some 0x0B ∧ (Instr.anc 0x2B op1).opcode = some 0x2B ∧
    (Instr.alr op1).opcode = some 0x4B ∧ (Instr.arr op1).opcode = some 0x6B ∧ (Instr.xaa op1).opcode = some 0x8B) ∧
  ∀ (op1 : Byte) (st : State),
    let t := st.a &&& op1
    (∀ slot, exec (.anc slot op1) st = .next { st with
      a := t
      p := { st.p with n := decide (128 ≤ t.toNat), z := decide (t.toNat = 0), c := decide (128 ≤ t.toNat) } }) ∧
    (∃ r : Byte, r.toNat = t.toNat / 2 ∧ exec (.alr op1) st = .next { st with
      a := r, p := { st.p with n := false, z := decide (r.toNat = 0), c := decide (t.toNat % 2 = 1) } }) ∧
    (∃ r : Byte, r.toNat = t.toNat / 2 + 128 * st.p.c.toNat ∧ exec (.arr op1) st = .next { st with
      a := r
      p := { st.p with
        n := st.p.c, z := decide (r.toNat = 0), c := decide (r.toNat / 64 % 2 = 1)
        v := decide (r.toNat / 64 % 2 ≠ r.toNat / 32 % 2) } }) ∧
    (∃ r : Byte, (∀ k, r.getLsbD k = (st.x.getLsbD k && op1.getLsbD k)) ∧ exec (.xaa op1) st = .next { st with
      a := r, p := { st.p with n := decide (128 ≤ r.toNat), z := decide (r.toNat = 0) } })

/-! ### Interrupts, the fault, the host -/

/-- An interrupt entry pushes PC, high byte first, then the status byte with B clear and I as it was; sets I; takes PC
from its own vector; clears its own pending bit; nothing else changes (60_exceptions.md R276). Bit 5 and what does
not change are the spec's own decision D24 (log 12). -/
def Obligations.InterruptEntryAction : Prop :=
  ∀ (k : Interrupt) (st : State),
    let t := interruptEntry k st
    let vector : Word := match k with
      | .nmi => 0xFFFA
      | .irq => 0xFFFE
    StoresThree st t (stackAddr st.s) (hi st.pc) (stackAddr (st.s - 1)) (lo st.pc)
      (stackAddr (st.s - 2)) (st.p.byte false) ∧
    t = { st with
      mem := t.mem, s := st.s - 3, p := { st.p with i := true }
      pc := word (t.mem.read (vector + 1)) (t.mem.read vector)
      nmiPending := decide (k ≠ .nmi) && st.nmiPending
      irqPending := decide (k ≠ .irq) && st.irqPending }

/-- After every populated instruction the boundary check looks at the flags the instruction left: a pending NMI selects
its service; else a pending IRQ does if I is then clear; else the next tick fetches; the pending bits stay and
`completed` is 1 (40_sequencer.md R88). That I is the one the instruction left is the spec's own inference in R88. -/
def Obligations.BoundaryAfterEveryInstruction : Prop :=
  ∀ st : State, st.AtFetch → st.inputs = [] → st.fetched.isAbsent = false →
    ∃ t, step st = .next t ∧ t.completed = true ∧ t.error = none ∧
      t.nmiPending = st.nmiPending ∧ t.irqPending = st.irqPending ∧
      (st.nmiPending = true → t.seq = .serviceInterrupt ∧ t.svc = .nmi ∧ t.wait = 7) ∧
      (st.nmiPending = false → st.irqPending = true → t.p.i = false →
        t.seq = .serviceInterrupt ∧ t.svc = .irq ∧ t.wait = 7) ∧
      (st.nmiPending = false → (st.irqPending = false ∨ t.p.i = true) → t.seq = .fetchOpcode)

/-- A service that a boundary has selected enters the handler in one step of seven cycles, with no second check: what
else is pending stays pending (40_sequencer.md R89; 70_reset_and_hazards.md R313). Six idle ticks, the whole entry in
the seventh, `completed = 1` there and no second check are the spec's own decision D9 (log 12); one step for the whole
service is log 4. -/
def Obligations.ServiceStepEntersTheHandler : Prop :=
  ∀ st : State, st.seq = .serviceInterrupt → st.fault = none → st.inputs = [] → st.wait = 7 →
    ∃ t, step st = .next t ∧
      t = { interruptEntry st.svc st with
        seq := .fetchOpcode, wait := 0, cycles := st.cycles + 7, completed := true, error := none } ∧
      ticks 6 st = .next { st with wait := 1, cycles := st.cycles + 6, completed := false, error := none } ∧
      ticks 7 st = .next t

/-- The fault: the fetch of an absent slot records it with the byte and its address, leaves PC one past, and changes
nothing else, in a step as in a tick; from then on a tick or step changes nothing and answers the error; and no
populated instruction faults, whatever its operands and the state (60_exceptions.md R272; 40_sequencer.md R83). That the
condition is sticky is the spec's own decision D5 (log 12); that an absent byte is an instruction whose `exec` answers a
next state is the model's choice (log 8). -/
def Obligations.OnlyAnAbsentFetchFaults : Prop :=
  (∀ st : State, st.AtFetch → st.fetched.isAbsent = true →
    ∃ t, tick false st = .next t ∧ stepAt false st = .next t ∧
      let f : UnknownOpcode := { op := st.mem.read st.pc, addr := st.pc }
      t = { st with
        ir := st.mem.read st.pc, pc := st.pc + 1, fault := some f, completed := false, error := some f }) ∧
  (∀ (st : State) (f : UnknownOpcode), st.fault = some f →
    tick false st = .next { st with completed := false, error := some f } ∧
    stepAt false st = .next { st with completed := false, error := some f }) ∧
  (∀ (slot : Byte) (st : State),
    exec (.absent slot) st = .next { st with fault := some { op := slot, addr := st.pc - 1 } }) ∧
  (∀ (i : Instr) (st : State), i.isAbsent = false → ∃ t, exec i st = .next t ∧ t.fault = st.fault)

/-- A halted tick or step changes no state and answers `completed = 0`, `error = none`, in the Faulted condition too,
while requests that arrive before it are latched (40_sequencer.md R82). The outputs are the spec's own decision D4
(log 12), the interval the model's (log 5). That requests are one-bit events latched outside ticks is its decision D10
(log 12). -/
def Obligations.HaltFreezesAllButTheRequests : Prop :=
  ∀ st : State,
    tick true st = .next { st with completed := false, error := none } ∧
    stepAt true st = .next { st with completed := false, error := none } ∧
    ∀ rest, st.inputs = { actions := [.nmiReq, .irqReq], halt := true } :: rest →
      clock st = .next { st with
        nmiPending := true, irqPending := true, inputs := rest, completed := false, error := none } ∧
      step st = clock st

/-- A request event sets its own pending bit and nothing else, in every state. It may arrive at any time before the
tick that completes an instruction or a service: latching it before a tick that does not complete, or after it, gives
the same state; a second request of a kind is absorbed, and one of the kind in service by the service (40_sequencer.md
R92; 60_exceptions.md R273, R274). One-bit latches set by events, and both absorptions, are the spec's own decision
D10 (log 12). -/
def Obligations.RequestsAreLatchedAtAnyTick : Prop :=
  (∀ st : State,
    hostAct .nmiReq st = .next { st with nmiPending := true } ∧ request .nmi st = { st with nmiPending := true } ∧
    hostAct .irqReq st = .next { st with irqPending := true } ∧ request .irq st = { st with irqPending := true }) ∧
  (∀ (halt : Bool) (k : Interrupt) (st t : State), tick halt st = .next t → t.completed = false →
    tick halt (request k st) = .next (request k t)) ∧
  (∀ st : State, st.seq = .serviceInterrupt → st.fault = none →
    stepAt false (request st.svc st) = stepAt false st) ∧
  (∀ (k : Interrupt) (st : State), request k (request k st) = request k st)

/-- The reset action for every choice of `RESET_REGS` in every state, faulted and mid-instruction states among them:
memory and what the rule calls don't-care stay (70_reset_and_hazards.md R300; that the don't-care fields stay is log
9's choice, that the outputs `completed` and `error` stay is log 6's). Clearing the pending bits, the fault and
`cycles`, and that reset is no tick, are the spec's own decision D3 (log 12), the free choice of registers its
decision D2 (log 1). -/
def Obligations.ResetAction : Prop :=
  ∀ (r : ResetRegs) (st : State),
    hostAct (.reset r) st = .next { st with
      a := r.a, x := r.x, y := r.y, s := r.s
      p := { n := r.n, v := r.v, d := r.d, i := r.i, z := r.z, c := r.c }
      pc := word (st.mem.read 0xFFFD) (st.mem.read 0xFFFC)
      seq := .fetchOpcode, nmiPending := false, irqPending := false, fault := none, cycles := 0 }

/-- A debug write takes effect at FetchOpcode or while faulted, on the one register, flag byte or memory byte it
names, P without bits 5 and 4; at any other time it is refused (40_sequencer.md R95). When the host may write is the
spec's own decision D23 (log 12), the refusal as an outcome the model's choice (log 13). -/
def Obligations.HostWritesOnlyAtABoundary : Prop :=
  ∀ st : State,
    ((st.seq = .fetchOpcode ∨ st.fault ≠ none) →
      (∀ v, hostAct (.poke (.a v)) st = .next { st with a := v }) ∧
      (∀ v, hostAct (.poke (.x v)) st = .next { st with x := v }) ∧
      (∀ v, hostAct (.poke (.y v)) st = .next { st with y := v }) ∧
      (∀ v, hostAct (.poke (.s v)) st = .next { st with s := v }) ∧
      (∀ v, hostAct (.poke (.pc v)) st = .next { st with pc := v }) ∧
      (∀ v, hostAct (.poke (.p v)) st = .next { st with p := Status.ofByte v }) ∧
      (∀ addr v, ∃ t, hostAct (.poke (.mem addr v)) st = .next t ∧ t = { st with mem := t.mem } ∧
        StoresByte st t addr v)) ∧
    (∀ w, st.seq ≠ .fetchOpcode → st.fault = none →
      hostAct (.poke w) st = .refused .hostWriteMidInstruction)

/-- A step stops only for a host write in the middle of an instruction or a service; every other step answers a next
state, and none changes the parameters (40_sequencer.md R95; 60_exceptions.md R272; log 3, log 13). When the host may
write is the spec's own decision D23 (log 12); that an absent fetch is a next state is the model's choice (log 8). -/
def Obligations.OnlyALateHostWriteStopsAStep : Prop :=
  ∀ st : State,
    (∀ t, step st = .next t → t.params = st.params) ∧
    (∀ r, step st = .refused r → r = .hostWriteMidInstruction ∧ st.seq ≠ .fetchOpcode ∧ st.fault = none ∧
      ∃ iv rest, st.inputs = iv :: rest ∧ ∃ w, HostAction.poke w ∈ iv.actions) ∧
    ((∀ iv rest, st.inputs = iv :: rest → ∀ w, HostAction.poke w ∉ iv.actions) → ∃ t, step st = .next t)

/-! ### The step, the ticks, the whole machine -/

/-- When the bytes at PC decode to a populated instruction, a step runs its operation in the state whose PC is past
it, with the latches filled and its cycles counted, and concludes it; and a step, as a tick of the whole machine, is
with host input left the host's actions first and then the step or tick at that interval's level of `halt`, and with
none left the step or tick alone at `halt = 0` (40_sequencer.md R81, R84, R92, R94, R95; log 4, log 5). PC past the
operands before the operation is the spec's own decision D8, requests and host writes between ticks its D10 and D23
(log 12), the step itself its inference in R94. -/
def Obligations.StepRunsTheDecodedInstruction : Prop :=
  (∀ (st : State) (i : Instr) (rest : List Byte), st.AtFetch → st.inputs = [] →
    decode (fetchBytes st) = .ok (i, rest) → i.isAbsent = false →
    ∃ u : State,
      u = { st with
        pc := st.pc + BitVec.ofNat 16 i.length
        ir := u.ir, op1 := u.op1, op2 := u.op2, ctx := u.ctx
        seq := .executeFinal, wait := 0, completed := false, error := none
        cycles := st.cycles + nominalCycles (st.mem.read st.pc) + stallsNeeded i u } ∧
      latched u = i ∧ step st = andThen (exec i u) (fun t => .next (conclude t))) ∧
  (∀ (st : State) (iv : Interval) (rest : List Interval), st.inputs = iv :: rest →
    step st = andThen (hostActs iv.actions { st with inputs := rest }) (stepAt iv.halt) ∧
    clock st = andThen (hostActs iv.actions { st with inputs := rest }) (tick iv.halt)) ∧
  (∀ st : State, st.inputs = [] → step st = stepAt false st ∧ clock st = tick false st)

/-- Every populated instruction adds its nominal count, one cycle if its access crosses a page, and the branch's extra
cycles: none if not taken, one to the page of the next instruction, two to another page (70_reset_and_hazards.md R310
to R312, R314; 40_sequencer.md R91). The counts themselves, by mnemonic and mode, are
NominalCyclesByMnemonicAndMode's. They are the spec's own decision D22; that every access in the three modes, stores
and read-modify-writes too, pays a crossing once and TOP none is its D17, the page compared its D25 (log 12). -/
def Obligations.CyclesPerInstruction : Prop :=
  ∀ st : State, st.AtFetch → st.inputs = [] → st.fetched.isAbsent = false →
    ∃ t page branch, step st = .next t ∧
      t.cycles = st.cycles + nominalCycles (st.mem.read st.pc) + page + branch ∧
      2 ≤ nominalCycles (st.mem.read st.pc) ∧ nominalCycles (st.mem.read st.pc) ≤ 8 ∧
      page ≤ 1 ∧ branch ≤ 2 ∧
      (page = 1 ↔ ∃ m, accessMode st.fetched = some m ∧ pageCrossed m st = true) ∧
      (branch ≠ 0 ↔ ∃ b, branchOf st.fetched = some b ∧ st.p.get b.flag = b.want) ∧
      (∀ b, branchOf st.fetched = some b → st.p.get b.flag = b.want →
        let next := st.pc + 2
        branch = if (branchTarget b.op1 { st with pc := next }).toNat / 256 = next.toNat / 256 then 1 else 2)

/-- The final PC of every instruction that is not control flow is its own address plus its length, modulo 65536
(10_state.md R15). PC's advance over the operands at fetch is the spec's own decision D8 (log 12), the wrap its
inference in R15. -/
def Obligations.FinalPCIsPastTheInstruction : Prop :=
  ∀ st : State, st.AtFetch → st.inputs = [] → st.fetched.isAbsent = false → changesFlow st.fetched = false →
    ∃ t, step st = .next t ∧ t.pc.toNat = (st.pc.toNat + st.fetched.length) % 65536

/-- No instruction writes a register, a byte of memory or a flag that the table of 10_state.md R24 does not list for
it, and none touches the sequencer, the pending bits, the cycle count or the parameters; a storing form writes the
byte at its effective address alone, a push the stack locations it names. The table is the spec's own inference from
the rules it names. -/
def Obligations.InstructionsWriteOnlyWhatTheTableLists : Prop :=
  ∀ (i : Instr) (st t : State), exec i st = .next t →
    SameUnit st t ∧
    (.a ∉ writtenPlaces i → t.a = st.a) ∧ (.x ∉ writtenPlaces i → t.x = st.x) ∧
    (.y ∉ writtenPlaces i → t.y = st.y) ∧ (.s ∉ writtenPlaces i → t.s = st.s) ∧
    (.pc ∉ writtenPlaces i → t.pc = st.pc) ∧ (.mem ∉ writtenPlaces i → t.mem = st.mem) ∧
    (∀ b : Word, b ∉ writtenAddresses i st → t.mem.read b = st.mem.read b) ∧
    (.fault ∉ writtenPlaces i → t.fault = st.fault) ∧
    ∀ f : FlagName, f ∉ writtenFlags i → t.p.get f = st.p.get f

/-- A tick that does not complete, the faulting tick and a faulted tick among them, changes no register but PC, no
flag, no memory and no pending bit; PC moves in the fetch tick alone, by the instruction's length, or past the one
byte of an absent slot (40_sequencer.md R83 to R86, R89; 60_exceptions.md R272). PC's whole advance at fetch and every
other effect in the completing tick are the spec's own decision D8, the idle service ticks its D9, the sticky fault
its D5 (log 12). -/
def Obligations.OnlyCompletingTicksHaveEffects : Prop :=
  ∀ st t : State, tick false st = .next t → t.completed = false →
    t.a = st.a ∧ t.x = st.x ∧ t.y = st.y ∧ t.s = st.s ∧ t.p = st.p ∧ t.mem = st.mem ∧
    t.nmiPending = st.nmiPending ∧ t.irqPending = st.irqPending ∧
    (st.AtFetch → t.pc = st.pc + BitVec.ofNat 16 st.fetched.length) ∧ (¬ st.AtFetch → t.pc = st.pc)

/-- A stalled invocation changes only `ctx`, `cycles` and the outputs; the number of stalls needed and the address are
the same at every invocation (40_sequencer.md R86, R87). That it changes only `ctx` and `cycles` is the spec's own
decision D8, one stall for a crossing its D17 (log 12), that nothing differs between invocations its inference in R87;
the latching of `ctx.ea` by the first alone is log 16. -/
def Obligations.StallsOnlyLatchTheAddress : Prop :=
  ∀ st : State, st.seq = .executeFinal → st.fault = none → st.ctx.stall < stallsNeeded (latched st) st →
    ∃ t, tick false st = .next t ∧
      t = { st with ctx := t.ctx, cycles := st.cycles + 1, completed := false, error := none } ∧
      t.ctx.stall = st.ctx.stall + 1 ∧
      (st.ctx.stall = 0 → t.ctx.ea = effectiveAddress (latched st) st) ∧
      (st.ctx.stall ≠ 0 → t.ctx.ea = st.ctx.ea) ∧
      latched t = latched st ∧ stallsNeeded (latched t) t = stallsNeeded (latched st) st ∧
      effectiveAddress (latched t) t = effectiveAddress (latched st) st

/-- The tick-level machine refines the instruction-level one: from a fetch, an instruction's nominal count plus its
stalls, in ticks, give the same whole state as the one step; an absent fetch takes one tick; and from any legal state
in the middle, so do the ticks that are left (40_sequencer.md R94). R94 defines the step only at FetchOpcode and marks
the agreement as its own inference; that a step from the middle runs what is left is the model's choice (log 4). -/
def Obligations.TicksComposeToTheStep : Prop :=
  ∀ st : State, st.LegalSequencer → st.fault = none →
    (st.seq = .fetchOpcode → st.fetched.isAbsent = false →
      ticks (nominalCycles (st.mem.read st.pc) + stallsNeeded st.fetched (latch st)) st = stepAt false st) ∧
    (st.seq = .fetchOpcode → st.fetched.isAbsent = true → ticks 1 st = stepAt false st) ∧
    (st.seq = .waitCycles → ticks (st.wait + stallsNeeded (latched st) st + 1) st = stepAt false st) ∧
    (st.seq = .executeFinal →
      ticks (stallsNeeded (latched st) st - st.ctx.stall + 1) st = stepAt false st) ∧
    (st.seq = .serviceInterrupt → ticks st.wait st = stepAt false st)

/-- Every step and every tick of the machine, whatever the host does between, keeps memory canonical and the sequencer
in a legal state (10_state.md R25 to R30). The canonical form and the legal states are the model's (log 10, log 18,
log 20), the sticky fault the spec's own decision D5 (log 12). -/
def Obligations.EveryStepAndTickKeepsSoundness : Prop :=
  ∀ st t : State, st.Sound → step st = .next t ∨ clock st = .next t → t.Sound

/-- The state after reset is sound, and so is the state after the reset action on any state with canonical memory. The
reset action clears what the spec's own decision D3 says (log 12); the values at State.reset are the model's (log 1,
log 2, log 9). -/
def Obligations.ResetIsSound : Prop :=
  State.reset.Sound ∧ ∀ (r : ResetRegs) (st : State), st.mem.wf = true → (applyReset r st).Sound

/-- The nominal cycle count of every mnemonic in every mode it has, the table of 70_reset_and_hazards.md R310 whole,
the undocumented ones with it (47_undocumented.md R240); the counts are the spec's own decision D22 (log 7, log 12).
The slots of the undocumented ones are its decision D6 (log 12). -/
def Obligations.NominalCyclesByMnemonicAndMode : Prop :=
  (∀ f ∈ [Instr.lda, .adc, .sbc, .cmp, .and, .ora, .eor],
    Takes f LoadMode.mode (accumulatorModes.zip [2, 3, 4, 4, 4, 4, 6, 5])) ∧
  Takes Instr.ldx LoadMode.mode
    [(.immediate, 2), (.zeropage, 3), (.zeropageY, 4), (.absolute, 4), (.absoluteY, 4)] ∧
  Takes Instr.ldy LoadMode.mode
    [(.immediate, 2), (.zeropage, 3), (.zeropageX, 4), (.absolute, 4), (.absoluteX, 4)] ∧
  (∀ f ∈ [Instr.cpx, .cpy], Takes f LoadMode.mode [(.immediate, 2), (.zeropage, 3), (.absolute, 4)]) ∧
  Takes Instr.sta MemMode.mode
    [(.zeropage, 3), (.zeropageX, 4), (.absolute, 4), (.absoluteX, 5), (.absoluteY, 5), (.indexedIndirect, 6),
     (.indirectIndexed, 6)] ∧
  Takes Instr.stx MemMode.mode [(.zeropage, 3), (.zeropageY, 4), (.absolute, 4)] ∧
  Takes Instr.sty MemMode.mode [(.zeropage, 3), (.zeropageX, 4), (.absolute, 4)] ∧
  Takes Instr.bit MemMode.mode [(.zeropage, 3), (.absolute, 4)] ∧
  (∀ f ∈ [Instr.inc, .dec],
    Takes f MemMode.mode [(.zeropage, 5), (.zeropageX, 6), (.absolute, 6), (.absoluteX, 7)]) ∧
  (∀ f ∈ [Instr.asl, .lsr, .rol, .ror], Takes f RmwMode.mode (shiftModes.zip [2, 5, 6, 6, 7])) ∧
  (∀ f ∈ [Instr.slo, .rla, .sre, .rra, .dcp, .isc],
    Takes f MemMode.mode (comboModes.zip [5, 6, 6, 7, 7, 8, 8])) ∧
  Takes Instr.lax MemMode.mode
    [(.zeropage, 3), (.zeropageY, 4), (.absolute, 4), (.absoluteY, 4), (.indexedIndirect, 6),
     (.indirectIndexed, 5)] ∧
  Takes Instr.sax MemMode.mode [(.zeropage, 3), (.zeropageY, 4), (.absolute, 4), (.indexedIndirect, 6)] ∧
  (∀ i ∈ [Instr.tax, .tay, .txa, .tya, .tsx, .txs, .inx, .iny, .dex, .dey, .clc, .sec, .cli, .sei, .cld, .sed, .clv,
          .nop], i.opcode.map nominalCycles = some 2) ∧
  (∀ e ∈ [(Instr.pha, 3), (.php, 3), (.pla, 4), (.plp, 4), (.rts, 6), (.rti, 6), (.brk, 7)],
    e.1.opcode.map nominalCycles = some e.2) ∧
  (∀ op1 : Byte, ∀ i ∈ [Instr.bcc op1, .bcs op1, .beq op1, .bne op1, .bmi op1, .bpl op1, .bvc op1, .bvs op1, .alr op1,
      .arr op1, .xaa op1, .sbcAlias op1], i.opcode.map nominalCycles = some 2) ∧
  (∀ op1 op2 : Byte, ∀ e ∈ [(Instr.jmp op1 op2, 3), (.jmpIndirect op1 op2, 5), (.jsr op1 op2, 6)],
    e.1.opcode.map nominalCycles = some e.2) ∧
  ∀ slot op1 op2 : Byte,
    (slot ∈ ([0x0B, 0x2B] : List Byte) → (Instr.anc slot op1).opcode.map nominalCycles = some 2) ∧
    (slot ∈ ([0x80, 0x82, 0x89, 0xC2, 0xE2] : List Byte) → (Instr.dop slot op1).opcode.map nominalCycles = some 2) ∧
    (slot ∈ ([0x04, 0x44, 0x64] : List Byte) → (Instr.dop slot op1).opcode.map nominalCycles = some 3) ∧
    (slot ∈ ([0x14, 0x34, 0x54, 0x74, 0xD4, 0xF4] : List Byte) →
      (Instr.dop slot op1).opcode.map nominalCycles = some 4) ∧
    (slot ∈ ([0x0C, 0x1C, 0x3C, 0x5C, 0x7C, 0xDC, 0xFC] : List Byte) →
      (Instr.top slot op1 op2).opcode.map nominalCycles = some 4)

/-- A run makes progress until it is faulted or halted: from every legal state that is not faulted, a tick that is not
halted counts a cycle and leaves no fault, or is the fetch of an absent slot, which counts none and faults. No end of a
run is Faulted, and a faulted machine comes to no end at all unless the host resets it (40_sequencer.md R82, R83, R91,
R96). R96 is the spec's own inference, the sticky fault its decision D5 (log 12), the end-of-run predicate the model's
(log 23). -/
def Obligations.RunsEndWhereTheHostSaysAndNeverFaulted : Prop :=
  (∀ st : State, st.LegalSequencer → st.fault = none → ∃ t, tick false st = .next t ∧
    (st.seq = .fetchOpcode ∧ st.fetched.isAbsent = true → t.fault ≠ none ∧ t.cycles = st.cycles) ∧
    (¬ (st.seq = .fetchOpcode ∧ st.fetched.isAbsent = true) → t.fault = none ∧ t.cycles = st.cycles + 1)) ∧
  (∀ (final : Word) (st : State), st.FinishedAt final → ¬ st.Faulted) ∧
  (∀ (final : Word) (st : State), st.Faulted → st.NoResetToCome → ¬ st.FinishesAt final)

/-- What each tick that is neither halted nor faulted gives, by the sequencer's state: a populated fetch latches, loads
`wait`, clears `ctx`; WaitCycles counts down; ExecuteFinal, once the stalls it needs are made, performs the operation and
concludes; a service idles for six ticks and enters in the seventh. `completed` is 1 exactly in the completing
ExecuteFinal tick and in the last tick of a service (40_sequencer.md R84, R85, R86, R89, R90). In which tick the effects
fall is the spec's own decision D8, the service's ticks and its `completed` its D9 (log 12), the count of WaitCycles
ticks its inference in R85. -/
def Obligations.EachTickDoesItsStatesWork : Prop :=
  ∀ st : State, st.fault = none →
    (st.seq = .fetchOpcode → st.fetched.isAbsent = false →
      let wait := nominalCycles (st.mem.read st.pc) - 2
      tick false st = .next { st with
        ir := st.mem.read st.pc
        op1 := if 2 ≤ st.fetched.length then st.mem.read (st.pc + 1) else st.op1
        op2 := if 3 ≤ st.fetched.length then st.mem.read (st.pc + 2) else st.op2
        pc := st.pc + BitVec.ofNat 16 st.fetched.length
        ctx := { stall := 0, ea := none }
        wait := wait, seq := if wait = 0 then .executeFinal else .waitCycles
        cycles := st.cycles + 1, completed := false, error := none }) ∧
    (st.seq = .waitCycles → 1 ≤ st.wait →
      tick false st = .next { st with
        wait := st.wait - 1, seq := if st.wait = 1 then .executeFinal else .waitCycles
        cycles := st.cycles + 1, completed := false, error := none }) ∧
    (st.seq = .executeFinal → stallsNeeded (latched st) st ≤ st.ctx.stall →
      tick false st =
        andThen (exec (latched st) { st with cycles := st.cycles + 1 }) (fun t => .next (conclude t))) ∧
    (st.seq = .serviceInterrupt → 2 ≤ st.wait →
      tick false st = .next { st with
        wait := st.wait - 1, cycles := st.cycles + 1, completed := false, error := none }) ∧
    (st.seq = .serviceInterrupt → st.wait = 1 →
      tick false st = .next { interruptEntry st.svc st with
        seq := .fetchOpcode, wait := 0, cycles := st.cycles + 1, completed := true, error := none }) ∧
    (st.LegalSequencer → ∀ t, tick false st = .next t →
      (t.completed = true ↔
        (st.seq = .executeFinal ∧ st.ctx.stall = stallsNeeded (latched st) st) ∨
        (st.seq = .serviceInterrupt ∧ st.wait = 1)))
end

