-- ==== Sys2Proof/Laws/Memory.lean ====
section
/-! SUPPORT. Memory: a read gives the latest write, and every operation keeps the canonical form. -/

namespace Sys2Proof.Machine

theorem Memory.get_erase (m : Memory) (a b : Nat) :
    (m.erase a).get b = if b = a then Config.unwritten else m.get b := by
  induction m with
  | nil => simp [Memory.erase, Memory.get]
  | cons e m ih =>
    obtain ⟨k, v⟩ := e
    by_cases hk : k = a
    · subst hk
      by_cases hb : b = k
      · subst hb
        simpa [Memory.erase] using ih
      · simp [Memory.erase, Memory.get, ih, hb, Ne.symm hb]
    · by_cases hb : b = a
      · subst hb
        simp [Memory.erase, Memory.get, hk, ih]
      · simp [Memory.erase, Memory.get, hk, hb, ih]

theorem Memory.get_insert (m : Memory) (a b : Nat) (v : Byte) (fresh : m.get a = Config.unwritten)
    (absent : ∀ e ∈ m, e.1 ≠ a) : (m.insert a v).get b = if b = a then v else m.get b := by
  induction m with
  | nil => simp only [Memory.insert, Memory.get, eq_comm]
  | cons e m ih =>
    obtain ⟨k, w⟩ := e
    have hk : k ≠ a := absent (k, w) (by simp)
    by_cases hlt : a < k
    · simp only [Memory.insert, if_pos hlt, Memory.get]
      simp only [eq_comm]
    · have ih' := ih (by simpa [Memory.get, hk] using fresh) fun e he => absent e (by simp [he])
      by_cases hb : b = a
      · subst hb
        simp [Memory.insert, hlt, Memory.get, hk, ih']
      · simp [Memory.insert, hlt, Memory.get, hb, ih']

theorem Memory.erase_absent (m : Memory) (a : Nat) : ∀ e ∈ m.erase a, e.1 ≠ a := by
  induction m with
  | nil => simp [Memory.erase]
  | cons e m ih =>
    obtain ⟨k, v⟩ := e
    by_cases hk : k = a
    · simpa [Memory.erase, hk] using ih
    · simpa [Memory.erase, hk] using ih

/-- Any location after a write to any location, whatever list memory is. -/
theorem Memory.get_set (m : Memory) (a b : Nat) (v : Byte) :
    (m.set a v).get b = if b = a then v else m.get b := by
  by_cases hv : v = Config.unwritten
  · simp [Memory.set, hv, Memory.get_erase]
  · rw [Memory.set, if_neg hv, Memory.get_insert _ _ _ _ (by simp [Memory.get_erase]) (m.erase_absent a),
      Memory.get_erase]
    by_cases hb : b = a <;> simp [hb]

/-- A read after a write: the byte written at that address, the old byte at every other (20_memory.md R41). -/
theorem Memory.read_write (m : Memory) (a b : Word) (v : Byte) :
    (m.write a v).read b = if b = a then v else m.read b := by
  simp only [Memory.read, Memory.write, Memory.get_set, BitVec.toNat_inj]

@[simp] theorem Memory.read_write_same (m : Memory) (a : Word) (v : Byte) : (m.write a v).read a = v := by
  simp [Memory.read_write]

theorem Memory.read_write_other (m : Memory) {a b : Word} (v : Byte) (h : b ≠ a) :
    (m.write a v).read b = m.read b := by
  simp [Memory.read_write, h]

@[simp] theorem Memory.read_nil (a : Word) : Memory.read [] a = Config.unwritten := rfl

theorem Memory.wfFrom_mono {n n' : Nat} {m : Memory} (hn : n' ≤ n) (h : Memory.wfFrom n m = true) :
    Memory.wfFrom n' m = true := by
  cases m with
  | nil => rfl
  | cons e m =>
    simp only [Memory.wfFrom, Bool.and_eq_true, decide_eq_true_eq] at h ⊢
    exact ⟨⟨⟨by omega, h.1.1.2⟩, h.1.2⟩, h.2⟩

theorem Memory.wfFrom_erase {n : Nat} {m : Memory} (a : Nat) (h : Memory.wfFrom n m = true) :
    Memory.wfFrom n (m.erase a) = true := by
  induction m generalizing n with
  | nil => rfl
  | cons e m ih =>
    obtain ⟨k, v⟩ := e
    simp only [Memory.wfFrom, Bool.and_eq_true, decide_eq_true_eq] at h
    by_cases hk : k = a
    · simp only [Memory.erase, if_pos hk]
      exact Memory.wfFrom_mono (by omega) (ih h.2)
    · simp only [Memory.erase, if_neg hk, Memory.wfFrom, Bool.and_eq_true, decide_eq_true_eq]
      exact ⟨h.1, ih h.2⟩

theorem Memory.wfFrom_insert {n : Nat} {m : Memory} {a : Nat} {v : Byte} (h : Memory.wfFrom n m = true)
    (ha : n ≤ a) (hs : a < memSize) (hv : v ≠ Config.unwritten) (absent : ∀ e ∈ m, e.1 ≠ a) :
    Memory.wfFrom n (m.insert a v) = true := by
  induction m generalizing n with
  | nil => simp [Memory.insert, Memory.wfFrom, ha, hs, hv]
  | cons e m ih =>
    obtain ⟨k, w⟩ := e
    have hk : k ≠ a := absent (k, w) (by simp)
    simp only [Memory.wfFrom, Bool.and_eq_true, decide_eq_true_eq] at h
    by_cases hlt : a < k
    · simp only [Memory.insert, if_pos hlt, Memory.wfFrom, Bool.and_eq_true, decide_eq_true_eq]
      exact ⟨⟨⟨ha, hs⟩, hv⟩, ⟨⟨by omega, h.1.1.2⟩, h.1.2⟩, h.2⟩
    · simp only [Memory.insert, if_neg hlt, Memory.wfFrom, Bool.and_eq_true, decide_eq_true_eq]
      exact ⟨h.1, ih h.2 (by omega) fun e he => absent e (by simp [he])⟩

theorem Memory.set_wf {m : Memory} {a : Nat} (v : Byte) (hs : a < memSize) (h : m.wf = true) :
    (m.set a v).wf = true := by
  by_cases hv : v = Config.unwritten
  · simpa [Memory.set, hv, Memory.wf] using Memory.wfFrom_erase a h
  · simpa [Memory.set, hv, Memory.wf] using
      Memory.wfFrom_insert (Memory.wfFrom_erase a h) (Nat.zero_le a) hs hv (m.erase_absent a)

/-- The one operation that changes memory keeps its canonical form. -/
theorem Memory.write_wf {m : Memory} (a : Word) (v : Byte) (h : m.wf = true) : (m.write a v).wf = true :=
  Memory.set_wf v a.isLt h

@[simp] theorem Memory.nil_wf : Memory.wf [] = true := rfl

end Sys2Proof.Machine
end

