-- ==== Sys2Proof/Laws/State.lean ====
section
/-! SUPPORT. One lemma per field per register update, all by rfl, so that no proof unfolds a record update. -/

namespace Sys2Proof.Machine

/-! ### setA -/

@[simp] theorem State.setA_a (v : Byte) (st : State) : (st.setA v).a = v := rfl
@[simp] theorem State.setA_x (v : Byte) (st : State) : (st.setA v).x = st.x := rfl
@[simp] theorem State.setA_y (v : Byte) (st : State) : (st.setA v).y = st.y := rfl
@[simp] theorem State.setA_s (v : Byte) (st : State) : (st.setA v).s = st.s := rfl
@[simp] theorem State.setA_pc (v : Byte) (st : State) : (st.setA v).pc = st.pc := rfl
@[simp] theorem State.setA_p (v : Byte) (st : State) : (st.setA v).p = st.p := rfl
@[simp] theorem State.setA_mem (v : Byte) (st : State) : (st.setA v).mem = st.mem := rfl
@[simp] theorem State.setA_seq (v : Byte) (st : State) : (st.setA v).seq = st.seq := rfl
@[simp] theorem State.setA_wait (v : Byte) (st : State) : (st.setA v).wait = st.wait := rfl
@[simp] theorem State.setA_ir (v : Byte) (st : State) : (st.setA v).ir = st.ir := rfl
@[simp] theorem State.setA_op1 (v : Byte) (st : State) : (st.setA v).op1 = st.op1 := rfl
@[simp] theorem State.setA_op2 (v : Byte) (st : State) : (st.setA v).op2 = st.op2 := rfl
@[simp] theorem State.setA_ctx (v : Byte) (st : State) : (st.setA v).ctx = st.ctx := rfl
@[simp] theorem State.setA_nmiPending (v : Byte) (st : State) : (st.setA v).nmiPending = st.nmiPending := rfl
@[simp] theorem State.setA_irqPending (v : Byte) (st : State) : (st.setA v).irqPending = st.irqPending := rfl
@[simp] theorem State.setA_svc (v : Byte) (st : State) : (st.setA v).svc = st.svc := rfl
@[simp] theorem State.setA_fault (v : Byte) (st : State) : (st.setA v).fault = st.fault := rfl
@[simp] theorem State.setA_cycles (v : Byte) (st : State) : (st.setA v).cycles = st.cycles := rfl
@[simp] theorem State.setA_completed (v : Byte) (st : State) : (st.setA v).completed = st.completed := rfl
@[simp] theorem State.setA_error (v : Byte) (st : State) : (st.setA v).error = st.error := rfl
@[simp] theorem State.setA_params (v : Byte) (st : State) : (st.setA v).params = st.params := rfl
@[simp] theorem State.setA_inputs (v : Byte) (st : State) : (st.setA v).inputs = st.inputs := rfl

/-! ### setX -/

@[simp] theorem State.setX_a (v : Byte) (st : State) : (st.setX v).a = st.a := rfl
@[simp] theorem State.setX_x (v : Byte) (st : State) : (st.setX v).x = v := rfl
@[simp] theorem State.setX_y (v : Byte) (st : State) : (st.setX v).y = st.y := rfl
@[simp] theorem State.setX_s (v : Byte) (st : State) : (st.setX v).s = st.s := rfl
@[simp] theorem State.setX_pc (v : Byte) (st : State) : (st.setX v).pc = st.pc := rfl
@[simp] theorem State.setX_p (v : Byte) (st : State) : (st.setX v).p = st.p := rfl
@[simp] theorem State.setX_mem (v : Byte) (st : State) : (st.setX v).mem = st.mem := rfl
@[simp] theorem State.setX_seq (v : Byte) (st : State) : (st.setX v).seq = st.seq := rfl
@[simp] theorem State.setX_wait (v : Byte) (st : State) : (st.setX v).wait = st.wait := rfl
@[simp] theorem State.setX_ir (v : Byte) (st : State) : (st.setX v).ir = st.ir := rfl
@[simp] theorem State.setX_op1 (v : Byte) (st : State) : (st.setX v).op1 = st.op1 := rfl
@[simp] theorem State.setX_op2 (v : Byte) (st : State) : (st.setX v).op2 = st.op2 := rfl
@[simp] theorem State.setX_ctx (v : Byte) (st : State) : (st.setX v).ctx = st.ctx := rfl
@[simp] theorem State.setX_nmiPending (v : Byte) (st : State) : (st.setX v).nmiPending = st.nmiPending := rfl
@[simp] theorem State.setX_irqPending (v : Byte) (st : State) : (st.setX v).irqPending = st.irqPending := rfl
@[simp] theorem State.setX_svc (v : Byte) (st : State) : (st.setX v).svc = st.svc := rfl
@[simp] theorem State.setX_fault (v : Byte) (st : State) : (st.setX v).fault = st.fault := rfl
@[simp] theorem State.setX_cycles (v : Byte) (st : State) : (st.setX v).cycles = st.cycles := rfl
@[simp] theorem State.setX_completed (v : Byte) (st : State) : (st.setX v).completed = st.completed := rfl
@[simp] theorem State.setX_error (v : Byte) (st : State) : (st.setX v).error = st.error := rfl
@[simp] theorem State.setX_params (v : Byte) (st : State) : (st.setX v).params = st.params := rfl
@[simp] theorem State.setX_inputs (v : Byte) (st : State) : (st.setX v).inputs = st.inputs := rfl

/-! ### setY -/

@[simp] theorem State.setY_a (v : Byte) (st : State) : (st.setY v).a = st.a := rfl
@[simp] theorem State.setY_x (v : Byte) (st : State) : (st.setY v).x = st.x := rfl
@[simp] theorem State.setY_y (v : Byte) (st : State) : (st.setY v).y = v := rfl
@[simp] theorem State.setY_s (v : Byte) (st : State) : (st.setY v).s = st.s := rfl
@[simp] theorem State.setY_pc (v : Byte) (st : State) : (st.setY v).pc = st.pc := rfl
@[simp] theorem State.setY_p (v : Byte) (st : State) : (st.setY v).p = st.p := rfl
@[simp] theorem State.setY_mem (v : Byte) (st : State) : (st.setY v).mem = st.mem := rfl
@[simp] theorem State.setY_seq (v : Byte) (st : State) : (st.setY v).seq = st.seq := rfl
@[simp] theorem State.setY_wait (v : Byte) (st : State) : (st.setY v).wait = st.wait := rfl
@[simp] theorem State.setY_ir (v : Byte) (st : State) : (st.setY v).ir = st.ir := rfl
@[simp] theorem State.setY_op1 (v : Byte) (st : State) : (st.setY v).op1 = st.op1 := rfl
@[simp] theorem State.setY_op2 (v : Byte) (st : State) : (st.setY v).op2 = st.op2 := rfl
@[simp] theorem State.setY_ctx (v : Byte) (st : State) : (st.setY v).ctx = st.ctx := rfl
@[simp] theorem State.setY_nmiPending (v : Byte) (st : State) : (st.setY v).nmiPending = st.nmiPending := rfl
@[simp] theorem State.setY_irqPending (v : Byte) (st : State) : (st.setY v).irqPending = st.irqPending := rfl
@[simp] theorem State.setY_svc (v : Byte) (st : State) : (st.setY v).svc = st.svc := rfl
@[simp] theorem State.setY_fault (v : Byte) (st : State) : (st.setY v).fault = st.fault := rfl
@[simp] theorem State.setY_cycles (v : Byte) (st : State) : (st.setY v).cycles = st.cycles := rfl
@[simp] theorem State.setY_completed (v : Byte) (st : State) : (st.setY v).completed = st.completed := rfl
@[simp] theorem State.setY_error (v : Byte) (st : State) : (st.setY v).error = st.error := rfl
@[simp] theorem State.setY_params (v : Byte) (st : State) : (st.setY v).params = st.params := rfl
@[simp] theorem State.setY_inputs (v : Byte) (st : State) : (st.setY v).inputs = st.inputs := rfl

/-! ### setS -/

@[simp] theorem State.setS_a (v : Byte) (st : State) : (st.setS v).a = st.a := rfl
@[simp] theorem State.setS_x (v : Byte) (st : State) : (st.setS v).x = st.x := rfl
@[simp] theorem State.setS_y (v : Byte) (st : State) : (st.setS v).y = st.y := rfl
@[simp] theorem State.setS_s (v : Byte) (st : State) : (st.setS v).s = v := rfl
@[simp] theorem State.setS_pc (v : Byte) (st : State) : (st.setS v).pc = st.pc := rfl
@[simp] theorem State.setS_p (v : Byte) (st : State) : (st.setS v).p = st.p := rfl
@[simp] theorem State.setS_mem (v : Byte) (st : State) : (st.setS v).mem = st.mem := rfl
@[simp] theorem State.setS_seq (v : Byte) (st : State) : (st.setS v).seq = st.seq := rfl
@[simp] theorem State.setS_wait (v : Byte) (st : State) : (st.setS v).wait = st.wait := rfl
@[simp] theorem State.setS_ir (v : Byte) (st : State) : (st.setS v).ir = st.ir := rfl
@[simp] theorem State.setS_op1 (v : Byte) (st : State) : (st.setS v).op1 = st.op1 := rfl
@[simp] theorem State.setS_op2 (v : Byte) (st : State) : (st.setS v).op2 = st.op2 := rfl
@[simp] theorem State.setS_ctx (v : Byte) (st : State) : (st.setS v).ctx = st.ctx := rfl
@[simp] theorem State.setS_nmiPending (v : Byte) (st : State) : (st.setS v).nmiPending = st.nmiPending := rfl
@[simp] theorem State.setS_irqPending (v : Byte) (st : State) : (st.setS v).irqPending = st.irqPending := rfl
@[simp] theorem State.setS_svc (v : Byte) (st : State) : (st.setS v).svc = st.svc := rfl
@[simp] theorem State.setS_fault (v : Byte) (st : State) : (st.setS v).fault = st.fault := rfl
@[simp] theorem State.setS_cycles (v : Byte) (st : State) : (st.setS v).cycles = st.cycles := rfl
@[simp] theorem State.setS_completed (v : Byte) (st : State) : (st.setS v).completed = st.completed := rfl
@[simp] theorem State.setS_error (v : Byte) (st : State) : (st.setS v).error = st.error := rfl
@[simp] theorem State.setS_params (v : Byte) (st : State) : (st.setS v).params = st.params := rfl
@[simp] theorem State.setS_inputs (v : Byte) (st : State) : (st.setS v).inputs = st.inputs := rfl

/-! ### setPC -/

@[simp] theorem State.setPC_a (v : Word) (st : State) : (st.setPC v).a = st.a := rfl
@[simp] theorem State.setPC_x (v : Word) (st : State) : (st.setPC v).x = st.x := rfl
@[simp] theorem State.setPC_y (v : Word) (st : State) : (st.setPC v).y = st.y := rfl
@[simp] theorem State.setPC_s (v : Word) (st : State) : (st.setPC v).s = st.s := rfl
@[simp] theorem State.setPC_pc (v : Word) (st : State) : (st.setPC v).pc = v := rfl
@[simp] theorem State.setPC_p (v : Word) (st : State) : (st.setPC v).p = st.p := rfl
@[simp] theorem State.setPC_mem (v : Word) (st : State) : (st.setPC v).mem = st.mem := rfl
@[simp] theorem State.setPC_seq (v : Word) (st : State) : (st.setPC v).seq = st.seq := rfl
@[simp] theorem State.setPC_wait (v : Word) (st : State) : (st.setPC v).wait = st.wait := rfl
@[simp] theorem State.setPC_ir (v : Word) (st : State) : (st.setPC v).ir = st.ir := rfl
@[simp] theorem State.setPC_op1 (v : Word) (st : State) : (st.setPC v).op1 = st.op1 := rfl
@[simp] theorem State.setPC_op2 (v : Word) (st : State) : (st.setPC v).op2 = st.op2 := rfl
@[simp] theorem State.setPC_ctx (v : Word) (st : State) : (st.setPC v).ctx = st.ctx := rfl
@[simp] theorem State.setPC_nmiPending (v : Word) (st : State) : (st.setPC v).nmiPending = st.nmiPending := rfl
@[simp] theorem State.setPC_irqPending (v : Word) (st : State) : (st.setPC v).irqPending = st.irqPending := rfl
@[simp] theorem State.setPC_svc (v : Word) (st : State) : (st.setPC v).svc = st.svc := rfl
@[simp] theorem State.setPC_fault (v : Word) (st : State) : (st.setPC v).fault = st.fault := rfl
@[simp] theorem State.setPC_cycles (v : Word) (st : State) : (st.setPC v).cycles = st.cycles := rfl
@[simp] theorem State.setPC_completed (v : Word) (st : State) : (st.setPC v).completed = st.completed := rfl
@[simp] theorem State.setPC_error (v : Word) (st : State) : (st.setPC v).error = st.error := rfl
@[simp] theorem State.setPC_params (v : Word) (st : State) : (st.setPC v).params = st.params := rfl
@[simp] theorem State.setPC_inputs (v : Word) (st : State) : (st.setPC v).inputs = st.inputs := rfl

/-! ### setStatus -/

@[simp] theorem State.setStatus_a (v : Status) (st : State) : (st.setStatus v).a = st.a := rfl
@[simp] theorem State.setStatus_x (v : Status) (st : State) : (st.setStatus v).x = st.x := rfl
@[simp] theorem State.setStatus_y (v : Status) (st : State) : (st.setStatus v).y = st.y := rfl
@[simp] theorem State.setStatus_s (v : Status) (st : State) : (st.setStatus v).s = st.s := rfl
@[simp] theorem State.setStatus_pc (v : Status) (st : State) : (st.setStatus v).pc = st.pc := rfl
@[simp] theorem State.setStatus_p (v : Status) (st : State) : (st.setStatus v).p = v := rfl
@[simp] theorem State.setStatus_mem (v : Status) (st : State) : (st.setStatus v).mem = st.mem := rfl
@[simp] theorem State.setStatus_seq (v : Status) (st : State) : (st.setStatus v).seq = st.seq := rfl
@[simp] theorem State.setStatus_wait (v : Status) (st : State) : (st.setStatus v).wait = st.wait := rfl
@[simp] theorem State.setStatus_ir (v : Status) (st : State) : (st.setStatus v).ir = st.ir := rfl
@[simp] theorem State.setStatus_op1 (v : Status) (st : State) : (st.setStatus v).op1 = st.op1 := rfl
@[simp] theorem State.setStatus_op2 (v : Status) (st : State) : (st.setStatus v).op2 = st.op2 := rfl
@[simp] theorem State.setStatus_ctx (v : Status) (st : State) : (st.setStatus v).ctx = st.ctx := rfl
@[simp] theorem State.setStatus_nmiPending (v : Status) (st : State) : (st.setStatus v).nmiPending = st.nmiPending := rfl
@[simp] theorem State.setStatus_irqPending (v : Status) (st : State) : (st.setStatus v).irqPending = st.irqPending := rfl
@[simp] theorem State.setStatus_svc (v : Status) (st : State) : (st.setStatus v).svc = st.svc := rfl
@[simp] theorem State.setStatus_fault (v : Status) (st : State) : (st.setStatus v).fault = st.fault := rfl
@[simp] theorem State.setStatus_cycles (v : Status) (st : State) : (st.setStatus v).cycles = st.cycles := rfl
@[simp] theorem State.setStatus_completed (v : Status) (st : State) : (st.setStatus v).completed = st.completed := rfl
@[simp] theorem State.setStatus_error (v : Status) (st : State) : (st.setStatus v).error = st.error := rfl
@[simp] theorem State.setStatus_params (v : Status) (st : State) : (st.setStatus v).params = st.params := rfl
@[simp] theorem State.setStatus_inputs (v : Status) (st : State) : (st.setStatus v).inputs = st.inputs := rfl

/-! ### setMem -/

@[simp] theorem State.setMem_a (v : Memory) (st : State) : (st.setMem v).a = st.a := rfl
@[simp] theorem State.setMem_x (v : Memory) (st : State) : (st.setMem v).x = st.x := rfl
@[simp] theorem State.setMem_y (v : Memory) (st : State) : (st.setMem v).y = st.y := rfl
@[simp] theorem State.setMem_s (v : Memory) (st : State) : (st.setMem v).s = st.s := rfl
@[simp] theorem State.setMem_pc (v : Memory) (st : State) : (st.setMem v).pc = st.pc := rfl
@[simp] theorem State.setMem_p (v : Memory) (st : State) : (st.setMem v).p = st.p := rfl
@[simp] theorem State.setMem_mem (v : Memory) (st : State) : (st.setMem v).mem = v := rfl
@[simp] theorem State.setMem_seq (v : Memory) (st : State) : (st.setMem v).seq = st.seq := rfl
@[simp] theorem State.setMem_wait (v : Memory) (st : State) : (st.setMem v).wait = st.wait := rfl
@[simp] theorem State.setMem_ir (v : Memory) (st : State) : (st.setMem v).ir = st.ir := rfl
@[simp] theorem State.setMem_op1 (v : Memory) (st : State) : (st.setMem v).op1 = st.op1 := rfl
@[simp] theorem State.setMem_op2 (v : Memory) (st : State) : (st.setMem v).op2 = st.op2 := rfl
@[simp] theorem State.setMem_ctx (v : Memory) (st : State) : (st.setMem v).ctx = st.ctx := rfl
@[simp] theorem State.setMem_nmiPending (v : Memory) (st : State) : (st.setMem v).nmiPending = st.nmiPending := rfl
@[simp] theorem State.setMem_irqPending (v : Memory) (st : State) : (st.setMem v).irqPending = st.irqPending := rfl
@[simp] theorem State.setMem_svc (v : Memory) (st : State) : (st.setMem v).svc = st.svc := rfl
@[simp] theorem State.setMem_fault (v : Memory) (st : State) : (st.setMem v).fault = st.fault := rfl
@[simp] theorem State.setMem_cycles (v : Memory) (st : State) : (st.setMem v).cycles = st.cycles := rfl
@[simp] theorem State.setMem_completed (v : Memory) (st : State) : (st.setMem v).completed = st.completed := rfl
@[simp] theorem State.setMem_error (v : Memory) (st : State) : (st.setMem v).error = st.error := rfl
@[simp] theorem State.setMem_params (v : Memory) (st : State) : (st.setMem v).params = st.params := rfl
@[simp] theorem State.setMem_inputs (v : Memory) (st : State) : (st.setMem v).inputs = st.inputs := rfl

/-! ### Flags -/

@[simp] theorem State.setFlag_eq (f : FlagName) (b : Bool) (st : State) :
    st.setFlag f b = st.setStatus (st.p.set f b) := rfl
@[simp] theorem State.setNZ_eq (v : Byte) (st : State) : st.setNZ v = st.setStatus (st.p.setNZ v) := rfl
@[simp] theorem State.writeByte_eq (a : Word) (v : Byte) (st : State) :
    st.writeByte a v = st.setMem (st.mem.write a v) := rfl

@[simp] theorem Status.set_n_n (p : Status) (b : Bool) : (p.set .n b).n = b := rfl
@[simp] theorem Status.set_n_v (p : Status) (b : Bool) : (p.set .n b).v = p.v := rfl
@[simp] theorem Status.set_n_d (p : Status) (b : Bool) : (p.set .n b).d = p.d := rfl
@[simp] theorem Status.set_n_i (p : Status) (b : Bool) : (p.set .n b).i = p.i := rfl
@[simp] theorem Status.set_n_z (p : Status) (b : Bool) : (p.set .n b).z = p.z := rfl
@[simp] theorem Status.set_n_c (p : Status) (b : Bool) : (p.set .n b).c = p.c := rfl
@[simp] theorem Status.set_v_n (p : Status) (b : Bool) : (p.set .v b).n = p.n := rfl
@[simp] theorem Status.set_v_v (p : Status) (b : Bool) : (p.set .v b).v = b := rfl
@[simp] theorem Status.set_v_d (p : Status) (b : Bool) : (p.set .v b).d = p.d := rfl
@[simp] theorem Status.set_v_i (p : Status) (b : Bool) : (p.set .v b).i = p.i := rfl
@[simp] theorem Status.set_v_z (p : Status) (b : Bool) : (p.set .v b).z = p.z := rfl
@[simp] theorem Status.set_v_c (p : Status) (b : Bool) : (p.set .v b).c = p.c := rfl
@[simp] theorem Status.set_d_n (p : Status) (b : Bool) : (p.set .d b).n = p.n := rfl
@[simp] theorem Status.set_d_v (p : Status) (b : Bool) : (p.set .d b).v = p.v := rfl
@[simp] theorem Status.set_d_d (p : Status) (b : Bool) : (p.set .d b).d = b := rfl
@[simp] theorem Status.set_d_i (p : Status) (b : Bool) : (p.set .d b).i = p.i := rfl
@[simp] theorem Status.set_d_z (p : Status) (b : Bool) : (p.set .d b).z = p.z := rfl
@[simp] theorem Status.set_d_c (p : Status) (b : Bool) : (p.set .d b).c = p.c := rfl
@[simp] theorem Status.set_i_n (p : Status) (b : Bool) : (p.set .i b).n = p.n := rfl
@[simp] theorem Status.set_i_v (p : Status) (b : Bool) : (p.set .i b).v = p.v := rfl
@[simp] theorem Status.set_i_d (p : Status) (b : Bool) : (p.set .i b).d = p.d := rfl
@[simp] theorem Status.set_i_i (p : Status) (b : Bool) : (p.set .i b).i = b := rfl
@[simp] theorem Status.set_i_z (p : Status) (b : Bool) : (p.set .i b).z = p.z := rfl
@[simp] theorem Status.set_i_c (p : Status) (b : Bool) : (p.set .i b).c = p.c := rfl
@[simp] theorem Status.set_z_n (p : Status) (b : Bool) : (p.set .z b).n = p.n := rfl
@[simp] theorem Status.set_z_v (p : Status) (b : Bool) : (p.set .z b).v = p.v := rfl
@[simp] theorem Status.set_z_d (p : Status) (b : Bool) : (p.set .z b).d = p.d := rfl
@[simp] theorem Status.set_z_i (p : Status) (b : Bool) : (p.set .z b).i = p.i := rfl
@[simp] theorem Status.set_z_z (p : Status) (b : Bool) : (p.set .z b).z = b := rfl
@[simp] theorem Status.set_z_c (p : Status) (b : Bool) : (p.set .z b).c = p.c := rfl
@[simp] theorem Status.set_c_n (p : Status) (b : Bool) : (p.set .c b).n = p.n := rfl
@[simp] theorem Status.set_c_v (p : Status) (b : Bool) : (p.set .c b).v = p.v := rfl
@[simp] theorem Status.set_c_d (p : Status) (b : Bool) : (p.set .c b).d = p.d := rfl
@[simp] theorem Status.set_c_i (p : Status) (b : Bool) : (p.set .c b).i = p.i := rfl
@[simp] theorem Status.set_c_z (p : Status) (b : Bool) : (p.set .c b).z = p.z := rfl
@[simp] theorem Status.set_c_c (p : Status) (b : Bool) : (p.set .c b).c = b := rfl
@[simp] theorem Status.setNZ_n (p : Status) (v : Byte) : (p.setNZ v).n = bit v 7 := rfl
@[simp] theorem Status.setNZ_v (p : Status) (v : Byte) : (p.setNZ v).v = p.v := rfl
@[simp] theorem Status.setNZ_d (p : Status) (v : Byte) : (p.setNZ v).d = p.d := rfl
@[simp] theorem Status.setNZ_i (p : Status) (v : Byte) : (p.setNZ v).i = p.i := rfl
@[simp] theorem Status.setNZ_z (p : Status) (v : Byte) : (p.setNZ v).z = (v == 0) := rfl
@[simp] theorem Status.setNZ_c (p : Status) (v : Byte) : (p.setNZ v).c = p.c := rfl
@[simp] theorem Status.get_n (p : Status) : p.get .n = p.n := rfl
@[simp] theorem Status.get_v (p : Status) : p.get .v = p.v := rfl
@[simp] theorem Status.get_d (p : Status) : p.get .d = p.d := rfl
@[simp] theorem Status.get_i (p : Status) : p.get .i = p.i := rfl
@[simp] theorem Status.get_z (p : Status) : p.get .z = p.z := rfl
@[simp] theorem Status.get_c (p : Status) : p.get .c = p.c := rfl

/-! ### The ticks that do nothing but answer -/

@[simp] theorem idle_a (e : Option UnknownOpcode) (st : State) : (idle e st).a = st.a := rfl
@[simp] theorem idle_x (e : Option UnknownOpcode) (st : State) : (idle e st).x = st.x := rfl
@[simp] theorem idle_y (e : Option UnknownOpcode) (st : State) : (idle e st).y = st.y := rfl
@[simp] theorem idle_s (e : Option UnknownOpcode) (st : State) : (idle e st).s = st.s := rfl
@[simp] theorem idle_pc (e : Option UnknownOpcode) (st : State) : (idle e st).pc = st.pc := rfl
@[simp] theorem idle_p (e : Option UnknownOpcode) (st : State) : (idle e st).p = st.p := rfl
@[simp] theorem idle_mem (e : Option UnknownOpcode) (st : State) : (idle e st).mem = st.mem := rfl
@[simp] theorem idle_seq (e : Option UnknownOpcode) (st : State) : (idle e st).seq = st.seq := rfl
@[simp] theorem idle_wait (e : Option UnknownOpcode) (st : State) : (idle e st).wait = st.wait := rfl
@[simp] theorem idle_ir (e : Option UnknownOpcode) (st : State) : (idle e st).ir = st.ir := rfl
@[simp] theorem idle_op1 (e : Option UnknownOpcode) (st : State) : (idle e st).op1 = st.op1 := rfl
@[simp] theorem idle_op2 (e : Option UnknownOpcode) (st : State) : (idle e st).op2 = st.op2 := rfl
@[simp] theorem idle_ctx (e : Option UnknownOpcode) (st : State) : (idle e st).ctx = st.ctx := rfl
@[simp] theorem idle_nmiPending (e : Option UnknownOpcode) (st : State) : (idle e st).nmiPending = st.nmiPending := rfl
@[simp] theorem idle_irqPending (e : Option UnknownOpcode) (st : State) : (idle e st).irqPending = st.irqPending := rfl
@[simp] theorem idle_svc (e : Option UnknownOpcode) (st : State) : (idle e st).svc = st.svc := rfl
@[simp] theorem idle_fault (e : Option UnknownOpcode) (st : State) : (idle e st).fault = st.fault := rfl
@[simp] theorem idle_cycles (e : Option UnknownOpcode) (st : State) : (idle e st).cycles = st.cycles := rfl
@[simp] theorem idle_completed (e : Option UnknownOpcode) (st : State) : (idle e st).completed = false := rfl
@[simp] theorem idle_error (e : Option UnknownOpcode) (st : State) : (idle e st).error = e := rfl
@[simp] theorem idle_params (e : Option UnknownOpcode) (st : State) : (idle e st).params = st.params := rfl
@[simp] theorem idle_inputs (e : Option UnknownOpcode) (st : State) : (idle e st).inputs = st.inputs := rfl

end Sys2Proof.Machine
end

