-- ==== Sys2Proof/Laws/Ops.lean ====
section
/-! SUPPORT. The shared operations: what each gives, field by field, so that proofs about instructions cite these and
unfold nothing. -/

namespace Sys2Proof.Machine

/-! ### Bits, words, addresses -/

theorem word_toNat (h l : Byte) : (word h l).toNat = h.toNat * 256 + l.toNat := by
  have hl := l.isLt
  simp only [word, BitVec.toNat_append, Nat.shiftLeft_eq]
  rw [show h.toNat * 2 ^ 8 = 2 ^ 8 * h.toNat by ring, ← Nat.two_pow_add_eq_or_of_lt hl h.toNat]
  ring

theorem lo_toNat (w : Word) : (lo w).toNat = w.toNat % 256 := by simp [lo]

theorem hi_toNat (w : Word) : (hi w).toNat = w.toNat / 256 := by
  have := w.isLt
  simp only [hi, BitVec.extractLsb'_toNat, Nat.shiftRight_eq_div_pow]
  omega

@[simp] theorem lo_word (h l : Byte) : lo (word h l) = l := by
  apply BitVec.eq_of_toNat_eq
  rw [lo_toNat, word_toNat]
  have := l.isLt
  omega

@[simp] theorem hi_word (h l : Byte) : hi (word h l) = h := by
  apply BitVec.eq_of_toNat_eq
  rw [hi_toNat, word_toNat]
  have := l.isLt
  omega

@[simp] theorem word_hi_lo (w : Word) : word (hi w) (lo w) = w := by
  apply BitVec.eq_of_toNat_eq
  rw [word_toNat, lo_toNat, hi_toNat]
  omega

theorem word_inj {h l h' l' : Byte} : word h l = word h' l' ↔ h = h' ∧ l = l' := by
  refine ⟨fun e => ⟨?_, ?_⟩, fun ⟨a, b⟩ => by rw [a, b]⟩
  · rw [← hi_word h l, e, hi_word]
  · rw [← lo_word h l, e, lo_word]

@[simp] theorem stackAddr_inj {s s' : Byte} : stackAddr s = stackAddr s' ↔ s = s' := by
  simp [stackAddr, word_inj]

/-! ### Outcomes -/

@[simp] theorem andThen_next (st : State) (f : State → Result) : andThen (.next st) f = f st := rfl
@[simp] theorem andThen_fault (r : Fault) (f : State → Result) : andThen (.fault r) f = .fault r := rfl
@[simp] theorem andThen_refused (r : Refusal) (f : State → Result) : andThen (.refused r) f = .refused r := rfl

theorem andThen_eq_next {o : Result} {f : State → Result} {t : State} (h : andThen o f = .next t) :
    ∃ st, o = .next st ∧ f st = .next t := by
  cases o with
  | next st => exact ⟨st, rfl, h⟩
  | fault r => cases h
  | refused r => cases h

/-! ### The stack -/

theorem push_eq (v : Byte) (st : State) :
    push v st = { st with mem := st.mem.write (stackAddr st.s) v, s := st.s - 1 } := rfl

theorem popMove_eq (st : State) : popMove st = { st with s := st.s + 1 } := rfl

theorem pushWord_eq (w : Word) (st : State) :
    pushWord w st =
      { st with
        mem := (st.mem.write (stackAddr st.s) (hi w)).write (stackAddr (st.s - 1)) (lo w)
        s := st.s - 1 - 1 } := rfl

/-! ### Exceptions -/

/-- All that taking a trap does. -/
theorem takeTrap_eq (ret : Word) (b : Bool) (vector : Word) (st : State) :
    takeTrap ret b vector st =
      let m := ((st.mem.write (stackAddr st.s) (hi ret)).write (stackAddr (st.s - 1)) (lo ret)).write
        (stackAddr (st.s - 1 - 1)) (st.p.byte b)
      { st with mem := m, s := st.s - 1 - 1 - 1, p := { st.p with i := true }, pc := m.read16 vector } := by
  simp only [takeTrap, pushWord_eq, push_eq, State.setFlag, State.setStatus, State.setPC, Status.set]

/-- All that returning from a trap does. -/
theorem returnFromTrap_eq (st : State) :
    returnFromTrap st =
      { st with
        s := st.s + 1 + 1 + 1
        p := Status.ofByte (st.mem.read (stackAddr (st.s + 1)))
        pc := word (st.mem.read (stackAddr (st.s + 1 + 1 + 1))) (st.mem.read (stackAddr (st.s + 1 + 1))) } := by
  simp only [returnFromTrap, popMove, popByte, State.setPC, State.setStatus, State.setS]

/-- All that an interrupt entry does. -/
theorem interruptEntry_eq (k : Interrupt) (st : State) :
    interruptEntry k st = clearPending k (takeTrap st.pc false k.vector st) := rfl

/-- All that an interrupt entry does, as one record: a field of the result is read off by `rfl`. -/
theorem interruptEntry_record (k : Interrupt) (st : State) :
    interruptEntry k st =
      let m := ((st.mem.write (stackAddr st.s) (hi st.pc)).write (stackAddr (st.s - 1)) (lo st.pc)).write
        (stackAddr (st.s - 1 - 1)) (st.p.byte false)
      { st with
        mem := m
        s := st.s - 1 - 1 - 1
        p := { st.p with i := true }
        pc := m.read16 k.vector
        nmiPending := decide (k ≠ .nmi) && st.nmiPending
        irqPending := decide (k ≠ .irq) && st.irqPending } := by
  cases k <;> simp only [interruptEntry_eq, takeTrap_eq, clearPending] <;> rfl

/-- All that the last tick of a service does. -/
theorem enterService_record (st : State) :
    enterService st = { interruptEntry st.svc st with seq := .fetchOpcode, completed := true, error := none } := rfl

/-! ### Read-modify-write -/

theorem modify_eq (f : Byte → Byte) (m : MemMode) (st : State) :
    modify f m st =
      (f (st.mem.read (address m st)),
       { st with mem := st.mem.write (address m st) (f (st.mem.read (address m st))) }) := rfl

/-! ### The end of an instruction -/

theorem conclude_of_fault {st : State} {f : UnknownOpcode} (h : st.fault = some f) :
    conclude st = idle (some f) st := by
  simp [conclude, h]

theorem conclude_of_no_fault {st : State} (h : st.fault = none) :
    conclude st = boundaryCheck { st with completed := true, error := none } := by
  simp [conclude, h]

/-- All that a boundary check can do (40_sequencer.md R88). -/
theorem boundaryCheck_cases (st : State) :
    (st.nmiPending = true ∧ boundaryCheck st = startService .nmi st) ∨
    (st.nmiPending = false ∧ st.irqPending = true ∧ st.p.i = false ∧ boundaryCheck st = startService .irq st) ∨
    (st.nmiPending = false ∧ (st.irqPending = false ∨ st.p.i = true) ∧
      boundaryCheck st = { st with seq := .fetchOpcode }) := by
  unfold boundaryCheck
  cases st.nmiPending <;> cases st.irqPending <;> cases st.p.i <;> simp

/-! ### What leaves memory canonical -/

theorem push_wf {v : Byte} {st : State} (h : st.mem.wf = true) : (push v st).mem.wf = true :=
  Memory.write_wf _ _ h

theorem pushWord_wf {w : Word} {st : State} (h : st.mem.wf = true) : (pushWord w st).mem.wf = true :=
  push_wf (push_wf h)

theorem takeTrap_wf {ret : Word} {b : Bool} {vector : Word} {st : State} (h : st.mem.wf = true) :
    (takeTrap ret b vector st).mem.wf = true :=
  push_wf (v := st.p.byte b) (pushWord_wf h)

theorem store_wf {m : MemMode} {v : Byte} {st : State} (h : st.mem.wf = true) : (store m v st).mem.wf = true :=
  Memory.write_wf _ _ h

theorem modify_wf {f : Byte → Byte} {m : MemMode} {st : State} (h : st.mem.wf = true) :
    (modify f m st).2.mem.wf = true :=
  Memory.write_wf _ _ h

theorem shiftMem_wf {f : Byte → Bool → ShiftResult} {m : MemMode} {st : State} (h : st.mem.wf = true) :
    (shiftMem f m st).2.mem.wf = true :=
  Memory.write_wf _ _ h

theorem interruptEntry_wf {k : Interrupt} {st : State} (h : st.mem.wf = true) :
    (interruptEntry k st).mem.wf = true := by
  have : (interruptEntry k st).mem = (takeTrap st.pc false k.vector st).mem := by cases k <;> rfl
  rw [this]
  exact takeTrap_wf h

theorem placeFetchWord_wf {st : State} {nbits w : Nat} (h : st.mem.wf = true) :
    (placeFetchWord st nbits w).mem.wf = true :=
  Memory.write_wf _ _ (Memory.write_wf _ _ (Memory.write_wf _ _ h))

end Sys2Proof.Machine
end

