-- ==== Sys2Proof/Laws/PerInstr.lean ====
section
/-! SUPPORT. Family Forms: an instruction is well-formed, by its own *Operands* line, exactly when the table by mnemonic
(30_encoding.md R64) has an opcode for it; so the two descriptions of the forms agree. -/

namespace Sys2Proof.Laws.Forms

/-- The form exists by its rule's *Operands* line exactly when R64 gives it an opcode. -/
def Statement (i : Instr) : Prop := i.wellFormed = i.opcode.isSome

theorem of_slots {l : List Byte} {slot : Byte} :
    l.contains slot = (if l.contains slot then some slot else none : Option Byte).isSome := by
  cases l.contains slot <;> rfl

theorem lda (m : LoadMode) : Statement (.lda m) := by
  cases m with
  | mem m => cases m <;> rfl
  | _ => rfl
theorem ldx (m : LoadMode) : Statement (.ldx m) := by
  cases m with
  | mem m => cases m <;> rfl
  | _ => rfl
theorem ldy (m : LoadMode) : Statement (.ldy m) := by
  cases m with
  | mem m => cases m <;> rfl
  | _ => rfl
theorem sta (m : MemMode) : Statement (.sta m) := by cases m <;> rfl
theorem stx (m : MemMode) : Statement (.stx m) := by cases m <;> rfl
theorem sty (m : MemMode) : Statement (.sty m) := by cases m <;> rfl
theorem tax : Statement .tax := rfl
theorem tay : Statement .tay := rfl
theorem txa : Statement .txa := rfl
theorem tya : Statement .tya := rfl
theorem tsx : Statement .tsx := rfl
theorem txs : Statement .txs := rfl
theorem adc (m : LoadMode) : Statement (.adc m) := by
  cases m with
  | mem m => cases m <;> rfl
  | _ => rfl
theorem sbc (m : LoadMode) : Statement (.sbc m) := by
  cases m with
  | mem m => cases m <;> rfl
  | _ => rfl
theorem cmp (m : LoadMode) : Statement (.cmp m) := by
  cases m with
  | mem m => cases m <;> rfl
  | _ => rfl
theorem cpx (m : LoadMode) : Statement (.cpx m) := by
  cases m with
  | mem m => cases m <;> rfl
  | _ => rfl
theorem cpy (m : LoadMode) : Statement (.cpy m) := by
  cases m with
  | mem m => cases m <;> rfl
  | _ => rfl
theorem inc (m : MemMode) : Statement (.inc m) := by cases m <;> rfl
theorem dec (m : MemMode) : Statement (.dec m) := by cases m <;> rfl
theorem inx : Statement .inx := rfl
theorem iny : Statement .iny := rfl
theorem dex : Statement .dex := rfl
theorem dey : Statement .dey := rfl
theorem and (m : LoadMode) : Statement (.and m) := by
  cases m with
  | mem m => cases m <;> rfl
  | _ => rfl
theorem ora (m : LoadMode) : Statement (.ora m) := by
  cases m with
  | mem m => cases m <;> rfl
  | _ => rfl
theorem eor (m : LoadMode) : Statement (.eor m) := by
  cases m with
  | mem m => cases m <;> rfl
  | _ => rfl
theorem bit (m : MemMode) : Statement (.bit m) := by cases m <;> rfl
theorem asl (m : RmwMode) : Statement (.asl m) := by
  cases m with
  | mem m => cases m <;> rfl
  | _ => rfl
theorem lsr (m : RmwMode) : Statement (.lsr m) := by
  cases m with
  | mem m => cases m <;> rfl
  | _ => rfl
theorem rol (m : RmwMode) : Statement (.rol m) := by
  cases m with
  | mem m => cases m <;> rfl
  | _ => rfl
theorem ror (m : RmwMode) : Statement (.ror m) := by
  cases m with
  | mem m => cases m <;> rfl
  | _ => rfl
theorem bcc (op1 : Byte) : Statement (.bcc op1) := rfl
theorem bcs (op1 : Byte) : Statement (.bcs op1) := rfl
theorem beq (op1 : Byte) : Statement (.beq op1) := rfl
theorem bne (op1 : Byte) : Statement (.bne op1) := rfl
theorem bmi (op1 : Byte) : Statement (.bmi op1) := rfl
theorem bpl (op1 : Byte) : Statement (.bpl op1) := rfl
theorem bvc (op1 : Byte) : Statement (.bvc op1) := rfl
theorem bvs (op1 : Byte) : Statement (.bvs op1) := rfl
theorem jmp (op1 op2 : Byte) : Statement (.jmp op1 op2) := rfl
theorem jmpIndirect (op1 op2 : Byte) : Statement (.jmpIndirect op1 op2) := rfl
theorem jsr (op1 op2 : Byte) : Statement (.jsr op1 op2) := rfl
theorem rts : Statement .rts := rfl
theorem pha : Statement .pha := rfl
theorem php : Statement .php := rfl
theorem pla : Statement .pla := rfl
theorem plp : Statement .plp := rfl
theorem clc : Statement .clc := rfl
theorem sec : Statement .sec := rfl
theorem cli : Statement .cli := rfl
theorem sei : Statement .sei := rfl
theorem cld : Statement .cld := rfl
theorem sed : Statement .sed := rfl
theorem clv : Statement .clv := rfl
theorem nop : Statement .nop := rfl
theorem brk : Statement .brk := rfl
theorem rti : Statement .rti := rfl
theorem slo (m : MemMode) : Statement (.slo m) := by cases m <;> rfl
theorem rla (m : MemMode) : Statement (.rla m) := by cases m <;> rfl
theorem sre (m : MemMode) : Statement (.sre m) := by cases m <;> rfl
theorem rra (m : MemMode) : Statement (.rra m) := by cases m <;> rfl
theorem dcp (m : MemMode) : Statement (.dcp m) := by cases m <;> rfl
theorem isc (m : MemMode) : Statement (.isc m) := by cases m <;> rfl
theorem lax (m : MemMode) : Statement (.lax m) := by cases m <;> rfl
theorem sax (m : MemMode) : Statement (.sax m) := by cases m <;> rfl
theorem anc (slot op1 : Byte) : Statement (.anc slot op1) := of_slots
theorem alr (op1 : Byte) : Statement (.alr op1) := rfl
theorem arr (op1 : Byte) : Statement (.arr op1) := rfl
theorem xaa (op1 : Byte) : Statement (.xaa op1) := rfl
theorem sbcAlias (op1 : Byte) : Statement (.sbcAlias op1) := rfl
theorem dop (slot op1 : Byte) : Statement (.dop slot op1) := of_slots
theorem top (slot op1 op2 : Byte) : Statement (.top slot op1 op2) := of_slots
theorem absent (slot : Byte) : Statement (.absent slot) := of_slots

end Sys2Proof.Laws.Forms
end

