-- ==== Sys2Proof/Laws/Sequencer.lean ====
section
/-! SUPPORT. The sequencer: what addresses and stalls depend on, and, once, all that a tick and a step can do. -/

namespace Sys2Proof.Machine

/-! ### What an address and a stall count depend on -/

/-- An effective address depends on X, Y, memory and the parameters alone. -/
theorem address_congr (m : MemMode) {st st' : State} (hx : st'.x = st.x) (hy : st'.y = st.y) (hm : st'.mem = st.mem)
    (hq : st'.params = st.params) : address m st' = address m st := by
  cases m <;> simp only [address, read16ZP, hx, hy, hm, hq]

/-- So does a page crossing. -/
theorem pageCrossed_congr (m : MemMode) {st st' : State} (hx : st'.x = st.x) (hy : st'.y = st.y)
    (hm : st'.mem = st.mem) (hq : st'.params = st.params) : pageCrossed m st' = pageCrossed m st := by
  cases m <;> simp only [pageCrossed, indexed, read16ZP, hx, hy, hm, hq]

/-- A branch's stalls depend on P and PC alone. -/
theorem Branch.stalls_congr (b : Branch) {st st' : State} (hp : st'.p = st.p) (hpc : st'.pc = st.pc) :
    b.stalls st' = b.stalls st := by
  unfold Branch.stalls Branch.taken branchTarget
  rw [hp, hpc]

/-- The stalls an instruction needs are the same in states that agree on X, Y, P, PC, memory and the parameters. -/
theorem stallsNeeded_congr (i : Instr) {st st' : State} (hx : st'.x = st.x) (hy : st'.y = st.y) (hp : st'.p = st.p)
    (hpc : st'.pc = st.pc) (hm : st'.mem = st.mem) (hq : st'.params = st.params) :
    stallsNeeded i st' = stallsNeeded i st := by
  unfold stallsNeeded
  simp only [pageCrossed_congr _ hx hy hm hq, Branch.stalls_congr _ hp hpc]

/-- And so is the address or target that the first stall latches. -/
theorem effectiveAddress_congr (i : Instr) {st st' : State} (hx : st'.x = st.x) (hy : st'.y = st.y)
    (hpc : st'.pc = st.pc) (hm : st'.mem = st.mem) (hq : st'.params = st.params) :
    effectiveAddress i st' = effectiveAddress i st := by
  unfold effectiveAddress branchTarget
  simp only [address_congr _ hx hy hm hq, hpc]

/-! ### All that a tick and a step can do -/

theorem Seq.cases (q : Seq) : q = .fetchOpcode ∨ q = .waitCycles ∨ q = .executeFinal ∨ q = .serviceInterrupt := by
  cases q <;> simp

/-- A tick with `halt = 0`: a faulted machine idles; else the tick of `seq` (40_sequencer.md R83 to R89). -/
theorem tick_cases {st t : State} (h : tick false st = .next t) :
    (∃ f, st.fault = some f ∧ t = idle (some f) st) ∨
    (st.fault = none ∧
      ((st.seq = .fetchOpcode ∧ (latched (latch st)).isAbsent = true ∧
          complete (latched (latch st)) (latch st) = .next t) ∨
        (st.seq = .fetchOpcode ∧ (latched (latch st)).isAbsent = false ∧ t = beginInstr (latch st)) ∨
        (st.seq = .waitCycles ∧ t = waitTick st) ∨
        (st.seq = .executeFinal ∧ st.ctx.stall < stallsNeeded (latched st) st ∧
          t = { st with cycles := st.cycles + 1, ctx := stallCtx (latched st) st, completed := false, error := none }) ∨
        (st.seq = .executeFinal ∧ ¬ st.ctx.stall < stallsNeeded (latched st) st ∧
          complete (latched st) { st with cycles := st.cycles + 1 } = .next t) ∨
        (st.seq = .serviceInterrupt ∧ t = serviceTick st))) := by
  simp only [tick, Bool.false_eq_true, if_false] at h
  rcases hf : st.fault with _ | f
  · rw [hf] at h
    refine .inr ⟨rfl, ?_⟩
    rcases Seq.cases st.seq with hs | hs | hs | hs <;> rw [hs] at h <;> dsimp only at h
    · simp only [fetchTick] at h
      by_cases ha : (latched (latch st)).isAbsent = true
      · rw [if_pos ha] at h
        exact .inl ⟨hs, ha, h⟩
      · rw [if_neg ha] at h
        exact .inr (.inl ⟨hs, by simpa using ha, (Host.Outcome.next.inj h).symm⟩)
    · exact .inr (.inr (.inl ⟨hs, (Host.Outcome.next.inj h).symm⟩))
    · simp only [executeTick] at h
      by_cases hq : st.ctx.stall < stallsNeeded (latched st) st
      · rw [if_pos hq] at h
        exact .inr (.inr (.inr (.inl ⟨hs, hq, hf ▸ (Host.Outcome.next.inj h).symm⟩)))
      · rw [if_neg hq] at h
        exact .inr (.inr (.inr (.inr (.inl ⟨hs, hq, hf ▸ h⟩))))
    · exact .inr (.inr (.inr (.inr (.inr ⟨hs, (Host.Outcome.next.inj h).symm⟩))))
  · rw [hf] at h
    exact .inl ⟨f, rfl, (Host.Outcome.next.inj h).symm⟩

/-- A step with `halt = 0`: a faulted machine idles; else one instruction, the rest of one, or the rest of a service
(40_sequencer.md R94). -/
theorem stepAt_cases {st t : State} (h : stepAt false st = .next t) :
    (∃ f, st.fault = some f ∧ t = idle (some f) st) ∨
    (st.fault = none ∧
      ((st.seq = .fetchOpcode ∧ stepInstr st = .next t) ∨
        ((st.seq = .waitCycles ∨ st.seq = .executeFinal) ∧ finishInstr st = .next t) ∨
        (st.seq = .serviceInterrupt ∧ t = stepService st))) := by
  simp only [stepAt, Bool.false_eq_true, if_false] at h
  rcases hf : st.fault with _ | f
  · rw [hf] at h
    refine .inr ⟨rfl, ?_⟩
    rcases Seq.cases st.seq with hs | hs | hs | hs <;> rw [hs] at h <;> dsimp only at h
    · exact .inl ⟨hs, h⟩
    · exact .inr (.inl ⟨.inl hs, h⟩)
    · exact .inr (.inl ⟨.inr hs, h⟩)
    · exact .inr (.inr ⟨hs, (Host.Outcome.next.inj h).symm⟩)
  · rw [hf] at h
    exact .inl ⟨f, rfl, (Host.Outcome.next.inj h).symm⟩

end Sys2Proof.Machine
end

