-- ==== Sys2Proof/Laws/Run.lean ====
section
/-! SUPPORT. Runs: the induction over a run, once, and that no action of the host but a reset ends the Faulted
condition. -/

namespace Sys2Proof.Machine

/-- What holds of a state and is kept by every step holds of every state its run reaches. -/
theorem Reaches.keeps {inv : State → Prop} (hstep : ∀ t u, inv t → Sys2Proof.Machine.step t = .next u → inv u) {st t : State}
    (h : Reaches st t) (h0 : inv st) : inv t := by
  induction h with
  | refl => exact h0
  | step t u _ hu ih => exact hstep t u ih hu

/-- An action of the host other than a reset keeps the fault and the intervals still to come. -/
theorem hostAct_keeps_fault {act : HostAction} {st t : State} (hr : ∀ r, act ≠ .reset r)
    (h : hostAct act st = .next t) : t.fault = st.fault ∧ t.inputs = st.inputs := by
  cases act with
  | reset r => exact absurd rfl (hr r)
  | nmiReq => cases h; exact ⟨rfl, rfl⟩
  | irqReq => cases h; exact ⟨rfl, rfl⟩
  | poke w =>
    simp only [hostAct] at h
    split at h
    · cases h
      cases w <;> exact ⟨rfl, rfl⟩
    · cases h

/-- And so does a list of them. -/
theorem hostActs_keeps_fault {acts : List HostAction} {st t : State} (hr : ∀ r, HostAction.reset r ∉ acts)
    (h : hostActs acts st = .next t) : t.fault = st.fault ∧ t.inputs = st.inputs := by
  induction acts generalizing st with
  | nil => cases h; exact ⟨rfl, rfl⟩
  | cons act acts ih =>
    rw [hostActs] at h
    obtain ⟨u, hu, hs⟩ := andThen_eq_next h
    have h1 := hostAct_keeps_fault (fun r e => hr r (e ▸ List.mem_cons_self)) hu
    have h2 := ih (fun r hm => hr r (List.mem_cons_of_mem act hm)) hs
    exact ⟨h2.1.trans h1.1, h2.2.trans h1.2⟩

/-- A step of a faulted machine at either level of `halt` keeps the fault and the intervals still to come. -/
theorem stepAt_faulted {halt : Bool} {st t : State} (hf : st.Faulted) (h : stepAt halt st = .next t) :
    t.fault = st.fault ∧ t.inputs = st.inputs := by
  obtain ⟨f, hf⟩ := Option.ne_none_iff_exists'.mp hf
  cases halt with
  | true => cases h; exact ⟨rfl, rfl⟩
  | false =>
    rcases stepAt_cases h with ⟨f, -, rfl⟩ | ⟨hn, -⟩
    · exact ⟨rfl, rfl⟩
    · rw [hf] at hn; cases hn

end Sys2Proof.Machine
end

