-- ==== Sys2Proof/Tests/Slice0.lean ====
section
/-! SUPPORT. The model's own tests: the well-formedness checks, a written-out word for every constructor, one or two
single steps per instruction, and a witness for the hypotheses of every statement that has some. Expected results are
the vectors of 95_test_vectors.md (named above each test) or hand calculation from the rule cited. -/

namespace Sys2Proof.Tests

open Sys2Proof Sys2Proof.Machine

/-! ### Well-formedness: an ill-formed term for each check -/

theorem test_ill_formed_load_store :
    [Instr.lda (.mem (.zeropageY 0x10)), .ldx (.mem (.zeropageX 0x10)), .ldy (.mem (.zeropageY 0x10)),
     .sta (.zeropageY 0x10), .stx (.zeropageX 0x10), .sty (.absoluteX 0x10 0x20)].all
      (fun i => !i.wellFormed && i.opcode.isNone) = true := by decide

theorem test_ill_formed_arithmetic :
    [Instr.adc (.mem (.zeropageY 0x10)), .sbc (.mem (.zeropageY 0x10)), .cmp (.mem (.zeropageY 0x10)),
     .cpx (.mem (.zeropageX 0x10)), .cpy (.mem (.absoluteX 0x10 0x20)), .inc (.absoluteY 0x10 0x20),
     .dec (.indirectIndexed 0x10)].all (fun i => !i.wellFormed && i.opcode.isNone) = true := by decide

theorem test_ill_formed_logic :
    [Instr.and (.mem (.zeropageY 0x10)), .ora (.mem (.zeropageY 0x10)), .eor (.mem (.zeropageY 0x10)),
     .bit (.zeropageX 0x10), .asl (.mem (.absoluteY 0x10 0x20)), .lsr (.mem (.indexedIndirect 0x10)),
     .rol (.mem (.zeropageY 0x10)), .ror (.mem (.indirectIndexed 0x10))].all
      (fun i => !i.wellFormed && i.opcode.isNone) = true := by decide

theorem test_ill_formed_undocumented :
    [Instr.slo (.zeropageY 0x10), .rla (.zeropageY 0x10), .sre (.zeropageY 0x10), .rra (.zeropageY 0x10),
     .dcp (.zeropageY 0x10), .isc (.zeropageY 0x10), .lax (.zeropageX 0x10), .sax (.absoluteY 0x10 0x20),
     .anc 0x4B 0x10, .dop 0xEA 0x10, .top 0x9C 0x10 0x20, .absent 0xEA].all
      (fun i => !i.wellFormed && i.opcode.isNone) = true := by decide

/-! ### Decoding: a word for every constructor, the opcode byte as in opcode_table.json, operands low byte first -/

/-- Each byte string decodes to its instruction, with nothing left over. -/
def decodesTo (l : List (List Byte × Instr)) : Bool := l.all fun e => decide (decode e.1 = .ok (e.2, []))

theorem test_decode_load_store_transfer :
    decodesTo [
      ([0b10101001, 0x01], .lda (.immediate 0x01)),
      ([0b10110110, 0x10], .ldx (.mem (.zeropageY 0x10))),
      ([0b10111100, 0x80, 0x20], .ldy (.mem (.absoluteX 0x80 0x20))),
      ([0b10010001, 0x30], .sta (.indirectIndexed 0x30)),
      ([0b10010110, 0x80], .stx (.zeropageY 0x80)),
      ([0b10001100, 0x00, 0x02], .sty (.absolute 0x00 0x02)),
      ([0b10101010], .tax),
      ([0b10101000], .tay),
      ([0b10001010], .txa),
      ([0b10011000], .tya),
      ([0b10111010], .tsx),
      ([0b10011010], .txs)] = true := by decide

theorem test_decode_arithmetic :
    decodesTo [
      ([0b01101001, 0x39], .adc (.immediate 0x39)),
      ([0b11110001, 0x40], .sbc (.mem (.indirectIndexed 0x40))),
      ([0b11000001, 0x20], .cmp (.mem (.indexedIndirect 0x20))),
      ([0b11100000, 0x05], .cpx (.immediate 0x05)),
      ([0b11000100, 0x10], .cpy (.mem (.zeropage 0x10))),
      ([0b11111110, 0xFF, 0x20], .inc (.absoluteX 0xFF 0x20)),
      ([0b11000110, 0x10], .dec (.zeropage 0x10)),
      ([0b11101000], .inx),
      ([0b11001000], .iny),
      ([0b11001010], .dex),
      ([0b10001000], .dey)] = true := by decide

theorem test_decode_logic_shift :
    decodesTo [
      ([0b00110101, 0x10], .and (.mem (.zeropageX 0x10))),
      ([0b00001001, 0x80], .ora (.immediate 0x80)),
      ([0b01011001, 0x34, 0x12], .eor (.mem (.absoluteY 0x34 0x12))),
      ([0b00101100, 0x00, 0x30], .bit (.absolute 0x00 0x30)),
      ([0b00001010], .asl .accumulator),
      ([0b01011110, 0xFF, 0x20], .lsr (.mem (.absoluteX 0xFF 0x20))),
      ([0b00110110, 0xFF], .rol (.mem (.zeropageX 0xFF))),
      ([0b01101010], .ror .accumulator)] = true := by decide

theorem test_decode_control_flow :
    decodesTo [
      ([0b10010000, 0x7F], .bcc 0x7F),
      ([0b10110000, 0x80], .bcs 0x80),
      ([0b11110000, 0xFD], .beq 0xFD),
      ([0b11010000, 0xFD], .bne 0xFD),
      ([0b00110000, 0x02], .bmi 0x02),
      ([0b00010000, 0x00], .bpl 0x00),
      ([0b01010000, 0x20], .bvc 0x20),
      ([0b01110000, 0xFE], .bvs 0xFE),
      ([0b01001100, 0x34, 0x12], .jmp 0x34 0x12),
      ([0b01101100, 0x34, 0x12], .jmpIndirect 0x34 0x12),
      ([0b00100000, 0x34, 0x12], .jsr 0x34 0x12),
      ([0b01100000], .rts)] = true := by decide

theorem test_decode_stack_flags_system :
    decodesTo [
      ([0b01001000], .pha),
      ([0b00001000], .php),
      ([0b01101000], .pla),
      ([0b00101000], .plp),
      ([0b00011000], .clc),
      ([0b00111000], .sec),
      ([0b01011000], .cli),
      ([0b01111000], .sei),
      ([0b11011000], .cld),
      ([0b11111000], .sed),
      ([0b10111000], .clv),
      ([0b11101010], .nop),
      ([0b00000000], .brk),
      ([0b01000000], .rti)] = true := by decide

theorem test_decode_undocumented :
    decodesTo [
      ([0b00000111, 0x10], .slo (.zeropage 0x10)),
      ([0b00100111, 0x10], .rla (.zeropage 0x10)),
      ([0b01000011, 0x10], .sre (.indexedIndirect 0x10)),
      ([0b01100011, 0x10], .rra (.indexedIndirect 0x10)),
      ([0b11011011, 0xFF, 0x20], .dcp (.absoluteY 0xFF 0x20)),
      ([0b11111111, 0x00, 0x20], .isc (.absoluteX 0x00 0x20)),
      ([0b10110111, 0xFF], .lax (.zeropageY 0xFF)),
      ([0b10010111, 0x10], .sax (.zeropageY 0x10)),
      ([0b00101011, 0x7F], .anc 0x2B 0x7F),
      ([0b01001011, 0x03], .alr 0x03),
      ([0b01101011, 0xFF], .arr 0xFF),
      ([0b10001011, 0x0F], .xaa 0x0F),
      ([0b11101011, 0x01], .sbcAlias 0x01),
      ([0b00010100, 0x10], .dop 0x14 0x10),
      ([0b00011100, 0xFF, 0x12], .top 0x1C 0xFF 0x12),
      ([0b10011100], .absent 0x9C)] = true := by decide

/-- Too few bytes are refused by name; the empty string too. -/
theorem test_decode_truncated :
    decode [0xBD, 0x00] = .error (.missingOperand 0xBD) ∧ decode [] = .error .noOpcode := by decide

/-- Table words: bit 0 of the word is bit 0 of the first byte; the operand bytes are zero where the table gives none. -/
theorem test_decode_table_word :
    decodeTableWord 8 0xBD = some (.lda (.mem (.absoluteX 0x00 0x00))) ∧
    decodeTableWord 24 0x1234BD = some (.lda (.mem (.absoluteX 0x34 0x12))) ∧
    decodeTableWord 8 0x02 = some (.absent 0x02) := by decide

/-! ### One step -/

/-- The defaults of 95_test_vectors.md with an instruction placed at an address and PC there. -/
def start (pc : Word) (bytes : List Byte) (cells : List (Word × Byte)) : State :=
  let placed := bytes.foldl (fun (q : Memory × Word) v => (q.1.write q.2 v, q.2 + 1)) ([], pc)
  { State.reset with s := 0xFF, pc := pc, mem := cells.foldl (fun m c => m.write c.1 c.2) placed.1 }

/-- The other value of both parameters. -/
def otherParams : Params := { jmpIndPageWrap := true, zpPtrWrap := false }

/-- What a test looks at. -/
structure View where
  a : Byte
  x : Byte
  y : Byte
  s : Byte
  pc : Word
  p : Byte
  cycles : Nat
  bytes : List Byte
deriving DecidableEq, Repr

/-- What a completing step leaves, with the bytes at some addresses. -/
def after (st : State) (addrs : List Word) : Option View :=
  match step st with
  | .next t =>
    if t.completed then
      some ⟨t.a, t.x, t.y, t.s, t.pc, t.p.byte false, t.cycles, addrs.map t.mem.read⟩
    else none
  | .fault _ => none
  | .refused _ => none

/-- LD-4 -/
theorem test_lda_zeropage_x_wraps : after { start 0x0200 [0xB5, 0xF0] [(0x0010, 0x11), (0x0110, 0x22)] with x := 0x20 } [] =
    some ⟨0x11, 0x20, 0x00, 0xFF, 0x0202, 0x20, 4, []⟩ := by decide

/-- LD-11b -/
theorem test_lda_indexed_indirect_pointer_wrap_off : after { start 0x0200 [0xA1, 0xFE] [(0x00FF, 0x00), (0x0000, 0x40), (0x4000, 0x66), (0x0100, 0x50), (0x5000, 0x77)] with x := 0x01, params := otherParams } [] =
    some ⟨0x77, 0x01, 0x00, 0xFF, 0x0202, 0x20, 6, []⟩ := by decide

/-- LD-5 -/
theorem test_ldx_zeropage_y_wraps : after { start 0x0200 [0xB6, 0xFF] [(0x0001, 0x33)] with y := 0x02 } [] =
    some ⟨0x00, 0x33, 0x02, 0xFF, 0x0202, 0x20, 4, []⟩ := by decide

/-- LD-15 -/
theorem test_ldy_absolute_x_crosses : after { start 0x0200 [0xBC, 0x80, 0x20] [(0x2100, 0x00)] with x := 0x80, y := 0x01 } [] =
    some ⟨0x00, 0x80, 0x00, 0xFF, 0x0203, 0x22, 5, []⟩ := by decide

/-- ST-4 -/
theorem test_sta_absolute_x_crosses : after { start 0x0200 [0x9D, 0xFF, 0x30] [] with a := 0x01, x := 0x05 } [0x3104] =
    some ⟨0x01, 0x05, 0x00, 0xFF, 0x0203, 0x20, 6, [0x01]⟩ := by decide

/-- ST-7 -/
theorem test_stx_zeropage_y_wraps : after { start 0x0200 [0x96, 0x80] [] with x := 0xAA, y := 0x90 } [0x0010] =
    some ⟨0x00, 0xAA, 0x90, 0xFF, 0x0202, 0x20, 4, [0xAA]⟩ := by decide

/-- ST-8 -/
theorem test_sty_over_its_own_opcode : after { start 0x0200 [0x8C, 0x00, 0x02] [] with y := 0xEA } [0x0200] =
    some ⟨0x00, 0x00, 0xEA, 0xFF, 0x0203, 0x20, 4, [0xEA]⟩ := by decide

/-- TR-1 -/
theorem test_tax : after { start 0x0200 [0xAA] [] with a := 0x80 } [] =
    some ⟨0x80, 0x80, 0x00, 0xFF, 0x0201, 0xA0, 2, []⟩ := by decide

/-- TR-2 -/
theorem test_tay : after { start 0x0200 [0xA8] [] with y := 0x01 } [] =
    some ⟨0x00, 0x00, 0x00, 0xFF, 0x0201, 0x22, 2, []⟩ := by decide

/-- TR-3 -/
theorem test_txa : after { start 0x0200 [0x8A] [] with x := 0x7F } [] =
    some ⟨0x7F, 0x7F, 0x00, 0xFF, 0x0201, 0x20, 2, []⟩ := by decide

/-- TR-4 -/
theorem test_tya : after { start 0x0200 [0x98] [] with y := 0xFF } [] =
    some ⟨0xFF, 0x00, 0xFF, 0xFF, 0x0201, 0xA0, 2, []⟩ := by decide

/-- TR-5 -/
theorem test_tsx : after { start 0x0200 [0xBA] [] with x := 0x01, s := 0x00 } [] =
    some ⟨0x00, 0x00, 0x00, 0x00, 0x0201, 0x22, 2, []⟩ := by decide

/-- TR-6 -/
theorem test_txs_no_flags : after { start 0x0200 [0x9A] [] with p := Status.ofByte 0x80 } [] =
    some ⟨0x00, 0x00, 0x00, 0x00, 0x0201, 0xA0, 2, []⟩ := by decide

/-- AR-2 -/
theorem test_adc_carry_in_and_ff : after { start 0x0200 [0x69, 0xFF] [] with p := Status.ofByte 0x01 } [] =
    some ⟨0x00, 0x00, 0x00, 0xFF, 0x0202, 0x23, 2, []⟩ := by decide

/-- AR-3 -/
theorem test_adc_decimal : after { start 0x0200 [0x69, 0x39] [] with a := 0x49, p := Status.ofByte 0x08 } [] =
    some ⟨0x88, 0x00, 0x00, 0xFF, 0x0202, 0xE8, 2, []⟩ := by decide

/-- AR-6 -/
theorem test_sbc_decimal : after { start 0x0200 [0xE9, 0x13] [] with a := 0x40, p := Status.ofByte 0x09 } [] =
    some ⟨0x27, 0x00, 0x00, 0xFF, 0x0202, 0x29, 2, []⟩ := by decide

/-- AR-7 -/
theorem test_sbc_indirect_indexed : after { start 0x0200 [0xF1, 0x40] [(0x0040, 0x00), (0x0041, 0x50), (0x5001, 0x05)] with a := 0x10, y := 0x01 } [] =
    some ⟨0x0A, 0x00, 0x01, 0xFF, 0x0202, 0x21, 5, []⟩ := by decide

/-- AR-9 -/
theorem test_cmp_equal_keeps_v : after { start 0x0200 [0xC9, 0x10] [] with a := 0x10, p := Status.ofByte 0x40 } [] =
    some ⟨0x10, 0x00, 0x00, 0xFF, 0x0202, 0x63, 2, []⟩ := by decide

/-- AR-10 -/
theorem test_cmp_n_is_bit_7 : after { start 0x0200 [0xC9, 0x01] [] with a := 0x80 } [] =
    some ⟨0x80, 0x00, 0x00, 0xFF, 0x0202, 0x21, 2, []⟩ := by decide

/-- AR-12 -/
theorem test_cpx_equal : after { start 0x0200 [0xE0, 0x05] [] with x := 0x05 } [] =
    some ⟨0x00, 0x05, 0x00, 0xFF, 0x0202, 0x23, 2, []⟩ := by decide

/-- AR-13 -/
theorem test_cpy_less : after (start 0x0200 [0xC4, 0x10] [(0x0010, 0x01)]) [] =
    some ⟨0x00, 0x00, 0x00, 0xFF, 0x0202, 0xA0, 3, []⟩ := by decide

/-- AR-16 -/
theorem test_inc_absolute_x_crosses : after { start 0x0200 [0xFE, 0xFF, 0x20] [(0x2100, 0x7F)] with x := 0x01 } [0x2100] =
    some ⟨0x00, 0x01, 0x00, 0xFF, 0x0203, 0xA0, 8, [0x80]⟩ := by decide

/-- AR-15 -/
theorem test_dec_wraps : after { start 0x0200 [0xC6, 0x10] [(0x0010, 0x00)] with p := Status.ofByte 0x01 } [0x0010] =
    some ⟨0x00, 0x00, 0x00, 0xFF, 0x0202, 0xA1, 5, [0xFF]⟩ := by decide

/-- AR-18 -/
theorem test_inx_wraps : after { start 0x0200 [0xE8] [] with x := 0xFF } [] =
    some ⟨0x00, 0x00, 0x00, 0xFF, 0x0201, 0x22, 2, []⟩ := by decide

/-- AR-19 -/
theorem test_iny : after { start 0x0200 [0xC8] [] with y := 0x7F } [] =
    some ⟨0x00, 0x00, 0x80, 0xFF, 0x0201, 0xA0, 2, []⟩ := by decide

/-- AR-20 -/
theorem test_dex_wraps : after (start 0x0200 [0xCA] []) [] =
    some ⟨0x00, 0xFF, 0x00, 0xFF, 0x0201, 0xA0, 2, []⟩ := by decide

/-- AR-21 -/
theorem test_dey_to_zero : after { start 0x0200 [0x88] [] with y := 0x01 } [] =
    some ⟨0x00, 0x00, 0x00, 0xFF, 0x0201, 0x22, 2, []⟩ := by decide

/-- LG-4 -/
theorem test_and_zeropage_x : after { start 0x0200 [0x35, 0x10] [(0x0011, 0x81)] with a := 0xFF, x := 0x01 } [] =
    some ⟨0x81, 0x01, 0x00, 0xFF, 0x0202, 0xA0, 4, []⟩ := by decide

/-- LG-5 -/
theorem test_ora_indirect_indexed_crosses : after { start 0x0200 [0x11, 0x20] [(0x0020, 0x01), (0x0021, 0x30), (0x3100, 0x40)] with y := 0xFF } [] =
    some ⟨0x40, 0x00, 0xFF, 0xFF, 0x0202, 0x20, 6, []⟩ := by decide

/-- LG-3 -/
theorem test_eor_to_zero : after { start 0x0200 [0x49, 0xFF] [] with a := 0xFF } [] =
    some ⟨0x00, 0x00, 0x00, 0xFF, 0x0202, 0x22, 2, []⟩ := by decide

/-- LG-6 -/
theorem test_bit_flags : after { start 0x0200 [0x24, 0x10] [(0x0010, 0xC0)] with a := 0x01 } [] =
    some ⟨0x01, 0x00, 0x00, 0xFF, 0x0202, 0xE2, 3, []⟩ := by decide

/-- LG-13 -/
theorem test_asl_zeropage : after (start 0x0200 [0x06, 0x10] [(0x0010, 0x55)]) [0x0010] =
    some ⟨0x00, 0x00, 0x00, 0xFF, 0x0202, 0xA0, 5, [0xAA]⟩ := by decide

/-- LG-14 -/
theorem test_lsr_absolute_x_crosses : after { start 0x0200 [0x5E, 0xFF, 0x20] [(0x2101, 0x03)] with x := 0x02 } [0x2101] =
    some ⟨0x00, 0x02, 0x00, 0xFF, 0x0203, 0x21, 8, [0x01]⟩ := by decide

/-- LG-10 -/
theorem test_rol_accumulator : after { start 0x0200 [0x2A] [] with a := 0x80, p := Status.ofByte 0x01 } [] =
    some ⟨0x01, 0x00, 0x00, 0xFF, 0x0201, 0x21, 2, []⟩ := by decide

/-- LG-15 -/
theorem test_rol_zeropage_x_wraps : after { start 0x0200 [0x36, 0xFF] [(0x0000, 0x40)] with x := 0x01, p := Status.ofByte 0x01 } [0x0000] =
    some ⟨0x00, 0x01, 0x00, 0xFF, 0x0202, 0xA0, 6, [0x81]⟩ := by decide

/-- LG-11 -/
theorem test_ror_accumulator : after { start 0x0200 [0x6A] [] with a := 0x01, p := Status.ofByte 0x01 } [] =
    some ⟨0x80, 0x00, 0x00, 0xFF, 0x0201, 0xA1, 2, []⟩ := by decide

/-- BR-4 -/
theorem test_bcc_crosses : after (start 0x02F0 [0x90, 0x7F] []) [] =
    some ⟨0x00, 0x00, 0x00, 0xFF, 0x0371, 0x20, 4, []⟩ := by decide

/-- BR-5 -/
theorem test_bcs_backward : after { start 0x0280 [0xB0, 0x80] [] with p := Status.ofByte 0x01 } [] =
    some ⟨0x00, 0x00, 0x00, 0xFF, 0x0202, 0x21, 3, []⟩ := by decide

/-- BR-3 -/
theorem test_beq_backward_crosses : after { start 0x0200 [0xF0, 0xFD] [] with p := Status.ofByte 0x02 } [] =
    some ⟨0x00, 0x00, 0x00, 0xFF, 0x01FF, 0x22, 4, []⟩ := by decide

/-- BR-1 -/
theorem test_bne_not_taken : after { start 0x0200 [0xD0, 0x10] [] with p := Status.ofByte 0x02 } [] =
    some ⟨0x00, 0x00, 0x00, 0xFF, 0x0202, 0x22, 2, []⟩ := by decide

/-- BR-2 -/
theorem test_bne_taken : after (start 0x0200 [0xD0, 0x10] []) [] =
    some ⟨0x00, 0x00, 0x00, 0xFF, 0x0212, 0x20, 3, []⟩ := by decide

/-- BR-6 -/
theorem test_bmi_crosses : after { start 0x02FC [0x30, 0x02] [] with p := Status.ofByte 0x80 } [] =
    some ⟨0x00, 0x00, 0x00, 0xFF, 0x0300, 0xA0, 4, []⟩ := by decide

/-- BR-7 -/
theorem test_bpl_to_next : after (start 0x02FE [0x10, 0x00] []) [] =
    some ⟨0x00, 0x00, 0x00, 0xFF, 0x0300, 0x20, 3, []⟩ := by decide

/-- BR-8 -/
theorem test_bvc_wraps : after (start 0xFFEE [0x50, 0x20] []) [] =
    some ⟨0x00, 0x00, 0x00, 0xFF, 0x0010, 0x20, 4, []⟩ := by decide

/-- BR-9 -/
theorem test_bvs_to_itself : after { start 0x0200 [0x70, 0xFE] [] with p := Status.ofByte 0x40 } [] =
    some ⟨0x00, 0x00, 0x00, 0xFF, 0x0200, 0x60, 3, []⟩ := by decide

/-- JP-1 -/
theorem test_jmp : after (start 0x0200 [0x4C, 0x34, 0x12] []) [] =
    some ⟨0x00, 0x00, 0x00, 0xFF, 0x1234, 0x20, 3, []⟩ := by decide

/-- JP-3 -/
theorem test_jmp_indirect : after (start 0x0200 [0x6C, 0xFF, 0x30] [(0x30FF, 0x78), (0x3100, 0x56), (0x3000, 0x9A)]) [] =
    some ⟨0x00, 0x00, 0x00, 0xFF, 0x5678, 0x20, 5, []⟩ := by decide

/-- JP-3b -/
theorem test_jmp_indirect_page_wrap : after { start 0x0200 [0x6C, 0xFF, 0x30] [(0x30FF, 0x78), (0x3100, 0x56), (0x3000, 0x9A)] with params := otherParams } [] =
    some ⟨0x00, 0x00, 0x00, 0xFF, 0x9A78, 0x20, 5, []⟩ := by decide

/-- JS-2 -/
theorem test_jsr_stack_wraps : after { start 0x0200 [0x20, 0x00, 0x30] [] with s := 0x00 } [0x0100, 0x01FF] =
    some ⟨0x00, 0x00, 0x00, 0xFE, 0x3000, 0x20, 6, [0x02, 0x02]⟩ := by decide

/-- JS-4 -/
theorem test_rts_wraps : after (start 0x0200 [0x60] [(0x0100, 0xFF), (0x0101, 0xFF)]) [] =
    some ⟨0x00, 0x00, 0x00, 0x01, 0x0000, 0x20, 6, []⟩ := by decide

/-- SK-2 -/
theorem test_pha_stack_wraps : after { start 0x0200 [0x48] [] with a := 0x42, s := 0x00 } [0x0100] =
    some ⟨0x42, 0x00, 0x00, 0xFF, 0x0201, 0x20, 3, [0x42]⟩ := by decide

/-- SK-3 -/
theorem test_php : after { start 0x0200 [0x08] [] with p := Status.ofByte 0x81 } [0x01FF] =
    some ⟨0x00, 0x00, 0x00, 0xFE, 0x0201, 0xA1, 3, [0xA1]⟩ := by decide

/-- SK-5 -/
theorem test_pla_stack_wraps : after (start 0x0200 [0x68] [(0x0100, 0x80)]) [] =
    some ⟨0x80, 0x00, 0x00, 0x00, 0x0201, 0xA0, 4, []⟩ := by decide

/-- SK-6 -/
theorem test_plp_all_ones : after { start 0x0200 [0x28] [(0x01FF, 0xFF)] with s := 0xFE } [] =
    some ⟨0x00, 0x00, 0x00, 0xFF, 0x0201, 0xEF, 4, []⟩ := by decide

/-- FL-1 -/
theorem test_clc : after { start 0x0200 [0x18] [] with p := Status.ofByte 0x01 } [] =
    some ⟨0x00, 0x00, 0x00, 0xFF, 0x0201, 0x20, 2, []⟩ := by decide

/-- FL-2 -/
theorem test_sec : after (start 0x0200 [0x38] []) [] =
    some ⟨0x00, 0x00, 0x00, 0xFF, 0x0201, 0x21, 2, []⟩ := by decide

/-- FL-3 -/
theorem test_cli : after { start 0x0200 [0x58] [] with p := Status.ofByte 0x04 } [] =
    some ⟨0x00, 0x00, 0x00, 0xFF, 0x0201, 0x20, 2, []⟩ := by decide

/-- FL-4 -/
theorem test_sei : after (start 0x0200 [0x78] []) [] =
    some ⟨0x00, 0x00, 0x00, 0xFF, 0x0201, 0x24, 2, []⟩ := by decide

/-- FL-5 -/
theorem test_cld : after { start 0x0200 [0xD8] [] with p := Status.ofByte 0x08 } [] =
    some ⟨0x00, 0x00, 0x00, 0xFF, 0x0201, 0x20, 2, []⟩ := by decide

/-- FL-6 -/
theorem test_sed : after (start 0x0200 [0xF8] []) [] =
    some ⟨0x00, 0x00, 0x00, 0xFF, 0x0201, 0x28, 2, []⟩ := by decide

/-- FL-7 -/
theorem test_clv : after { start 0x0200 [0xB8] [] with p := Status.ofByte 0x40 } [] =
    some ⟨0x00, 0x00, 0x00, 0xFF, 0x0201, 0x20, 2, []⟩ := by decide

/-- FL-8 -/
theorem test_nop : after { start 0x0200 [0xEA] [] with p := Status.ofByte 0x83 } [] =
    some ⟨0x00, 0x00, 0x00, 0xFF, 0x0201, 0xA3, 2, []⟩ := by decide

/-- BK-1 -/
theorem test_brk : after { start 0x0200 [0x00, 0xFF] [(0xFFFE, 0x00), (0xFFFF, 0x90)] with p := Status.ofByte 0x02 } [0x01FF, 0x01FE, 0x01FD] =
    some ⟨0x00, 0x00, 0x00, 0xFC, 0x9000, 0x26, 7, [0x02, 0x02, 0x32]⟩ := by decide

/-- BK-2 -/
theorem test_brk_stack_wraps : after { start 0x0200 [0x00] [(0xFFFE, 0x00), (0xFFFF, 0x90)] with s := 0x01, p := Status.ofByte 0x0C } [0x0101, 0x0100, 0x01FF] =
    some ⟨0x00, 0x00, 0x00, 0xFE, 0x9000, 0x2C, 7, [0x02, 0x02, 0x3C]⟩ := by decide

/-- BK-3 -/
theorem test_rti : after { start 0x0200 [0x40] [(0x01FD, 0xF3), (0x01FE, 0x02), (0x01FF, 0x02)] with s := 0xFC } [] =
    some ⟨0x00, 0x00, 0x00, 0xFF, 0x0202, 0xE3, 6, []⟩ := by decide

/-- UD-1 -/
theorem test_slo : after { start 0x0200 [0x07, 0x10] [(0x0010, 0x81)] with a := 0x01 } [0x0010] =
    some ⟨0x03, 0x00, 0x00, 0xFF, 0x0202, 0x21, 5, [0x02]⟩ := by decide

/-- UD-2 -/
theorem test_rla : after { start 0x0200 [0x27, 0x10] [(0x0010, 0x40)] with a := 0xFF, p := Status.ofByte 0x01 } [0x0010] =
    some ⟨0x81, 0x00, 0x00, 0xFF, 0x0202, 0xA0, 5, [0x81]⟩ := by decide

/-- UD-3 -/
theorem test_sre : after { start 0x0200 [0x47, 0x10] [(0x0010, 0x03)] with a := 0xFF } [0x0010] =
    some ⟨0xFE, 0x00, 0x00, 0xFF, 0x0202, 0xA1, 5, [0x01]⟩ := by decide

/-- UD-5 -/
theorem test_rra_decimal : after { start 0x0200 [0x67, 0x10] [(0x0010, 0x13)] with a := 0x19, p := Status.ofByte 0x08 } [0x0010] =
    some ⟨0x29, 0x00, 0x00, 0xFF, 0x0202, 0x28, 5, [0x09]⟩ := by decide

/-- UD-8 -/
theorem test_dcp_absolute_y_crosses : after { start 0x0200 [0xDB, 0xFF, 0x20] [(0x2100, 0x01)] with y := 0x01 } [0x2100] =
    some ⟨0x00, 0x00, 0x01, 0xFF, 0x0203, 0x23, 8, [0x00]⟩ := by decide

/-- UD-7 -/
theorem test_isc : after { start 0x0200 [0xE7, 0x10] [(0x0010, 0x0F)] with a := 0x10, p := Status.ofByte 0x01 } [0x0010] =
    some ⟨0x00, 0x00, 0x00, 0xFF, 0x0202, 0x23, 5, [0x10]⟩ := by decide

/-- UD-10 -/
theorem test_lax_indirect_indexed_crosses : after { start 0x0200 [0xB3, 0x10] [(0x0010, 0x01), (0x0011, 0x20), (0x2100, 0x00)] with a := 0x01, x := 0x01, y := 0xFF } [] =
    some ⟨0x00, 0x00, 0xFF, 0xFF, 0x0202, 0x22, 6, []⟩ := by decide

/-- UD-12 -/
theorem test_sax : after { start 0x0200 [0x87, 0x10] [] with a := 0xF0, x := 0x3C, p := Status.ofByte 0x82 } [0x0010] =
    some ⟨0xF0, 0x3C, 0x00, 0xFF, 0x0202, 0xA2, 3, [0x30]⟩ := by decide

/-- UD-13 -/
theorem test_anc : after { start 0x0200 [0x0B, 0x80] [] with a := 0xFF } [] =
    some ⟨0x80, 0x00, 0x00, 0xFF, 0x0202, 0xA1, 2, []⟩ := by decide

/-- UD-14 -/
theorem test_anc_second_slot : after { start 0x0200 [0x2B, 0x7F] [] with a := 0xFF, p := Status.ofByte 0x01 } [] =
    some ⟨0x7F, 0x00, 0x00, 0xFF, 0x0202, 0x20, 2, []⟩ := by decide

/-- UD-15 -/
theorem test_alr : after { start 0x0200 [0x4B, 0x03] [] with a := 0xFF } [] =
    some ⟨0x01, 0x00, 0x00, 0xFF, 0x0202, 0x21, 2, []⟩ := by decide

/-- UD-17 -/
theorem test_arr : after { start 0x0200 [0x6B, 0xFF] [] with a := 0x80 } [] =
    some ⟨0x40, 0x00, 0x00, 0xFF, 0x0202, 0x61, 2, []⟩ := by decide

/-- UD-18 -/
theorem test_arr_ignores_d : after { start 0x0200 [0x6B, 0x7F] [] with a := 0x40, p := Status.ofByte 0x08 } [] =
    some ⟨0x20, 0x00, 0x00, 0xFF, 0x0202, 0x68, 2, []⟩ := by decide

/-- UD-19 -/
theorem test_xaa : after { start 0x0200 [0x8B, 0x0F] [] with a := 0xFF, x := 0x3C } [] =
    some ⟨0x0C, 0x3C, 0x00, 0xFF, 0x0202, 0x20, 2, []⟩ := by decide

/-- UD-20 -/
theorem test_sbc_alias : after { start 0x0200 [0xEB, 0x01] [] with p := Status.ofByte 0x01 } [] =
    some ⟨0xFF, 0x00, 0x00, 0xFF, 0x0202, 0xA0, 2, []⟩ := by decide

/-- UD-23 -/
theorem test_dop : after { start 0x0200 [0x14, 0x10] [] with x := 0x05 } [] =
    some ⟨0x00, 0x05, 0x00, 0xFF, 0x0202, 0x20, 4, []⟩ := by decide

/-- UD-25 -/
theorem test_top_crossing_costs_nothing : after { start 0x0200 [0x1C, 0xFF, 0x12] [] with x := 0x01 } [] =
    some ⟨0x00, 0x01, 0x00, 0xFF, 0x0203, 0x20, 4, []⟩ := by decide

/-- The next state, or the same one where there is none. -/
def next (o : Result) (st : State) : State :=
  match o with
  | .next t => t
  | .fault _ => st
  | .refused _ => st

/-- FT-2: an absent slot. -/
theorem test_absent :
    let t := next (step { start 0x0200 [0x9C, 0x00, 0x30] [] with a := 0x11 }) State.reset
    t.fault = some ⟨0x9C, 0x0200⟩ ∧ t.error = t.fault ∧ t.completed = false ∧ t.pc = 0x0201 ∧ t.a = 0x11 ∧
      t.cycles = 0 ∧ t.seq = .fetchOpcode := by decide

/-- P6: a faulted machine only returns the error. -/
theorem test_faulted_step :
    let t := next (step { start 0x0A05 [0xA9, 0x09] [] with fault := some ⟨0x02, 0x0A04⟩ }) State.reset
    t.a = 0x00 ∧ t.pc = 0x0A05 ∧ t.cycles = 0 ∧ t.completed = false ∧ t.error = some ⟨0x02, 0x0A04⟩ := by decide

/-- S6: an NMI asserted during the LDA selects its service. -/
theorem test_boundary_selects_nmi :
    let t := next (step { start 0xD000 [0xA9, 0x05] [] with inputs := [⟨[.nmiReq, .irqReq], false⟩] }) State.reset
    t.seq = .serviceInterrupt ∧ t.svc = .nmi ∧ t.wait = 7 ∧ t.a = 0x05 ∧ t.pc = 0xD002 ∧ t.irqPending = true := by decide

/-- S6, T2: the service. -/
theorem test_nmi_service :
    let st : State := { start 0xD002 [] [(0xFFFA, 0xAD), (0xFFFB, 0xDE)] with
      seq := .serviceInterrupt, svc := .nmi, wait := 7, nmiPending := true, cycles := 2 }
    after st [0x01FF, 0x01FE, 0x01FD] = some ⟨0x00, 0x00, 0x00, 0xFC, 0xDEAD, 0x24, 9, [0xD0, 0x02, 0x20]⟩ := by decide

/-- P4, step 6: the IRQ's vector and its own pending bit. -/
theorem test_irq_service :
    let st : State := { start 0x0402 [] [(0xFFFE, 0x00), (0xFFFF, 0x05)] with
      seq := .serviceInterrupt, svc := .irq, wait := 7, irqPending := true, nmiPending := true }
    let t := next (step st) State.reset
    t.pc = 0x0500 ∧ t.irqPending = false ∧ t.nmiPending = true ∧ t.seq = .fetchOpcode := by decide

/-- T4: with I set an IRQ stays pending; after CLI it is taken. -/
theorem test_irq_mask :
    (next (step { start 0x0400 [0xEA] [] with irqPending := true, p := Status.ofByte 0x04 }) State.reset).seq
      = .fetchOpcode ∧
    (next (step { start 0x0401 [0x58] [] with irqPending := true, p := Status.ofByte 0x04 }) State.reset).seq
      = .serviceInterrupt := by decide

/-- T1: ticks 4 and 5 of a load that crosses a page. -/
theorem test_ticks_of_a_crossing_load :
    let st : State := { start 0x0200 [0xBD, 0xF0, 0x12] [(0x1300, 0x02)] with x := 0x10 }
    let t4 := next (ticks 4 st) st
    let t5 := next (ticks 5 st) st
    t4.seq = .executeFinal ∧ t4.ctx.stall = 1 ∧ t4.pc = 0x0203 ∧ t4.a = 0x00 ∧ t4.cycles = 4 ∧
      t4.completed = false ∧ t5.seq = .fetchOpcode ∧ t5.a = 0x02 ∧ t5.cycles = 5 ∧ t5.completed = true := by decide

/-- T3: a halted tick in the middle of INC. -/
theorem test_halt_in_the_middle :
    let t2 := next (ticks 2 (start 0x0200 [0xE6, 0x10] [])) State.reset
    let t3 := next (tick true t2) State.reset
    t3.seq = .waitCycles ∧ t3.wait = 2 ∧ t3.cycles = 2 ∧ t3.completed = false ∧
      (next (ticks 3 t3) State.reset).mem.read 0x0010 = 0x01 ∧ (next (ticks 3 t3) State.reset).cycles = 5 := by decide

/-- P6: the reset action in the Faulted condition; memory survives. -/
theorem test_reset_clears_the_fault :
    let st : State := { start 0x0A05 [] [(0x0010, 0x07), (0xFFFD, 0x08)] with
      fault := some ⟨0x02, 0x0A04⟩, nmiPending := true, cycles := 5 }
    let t := next (hostAct (.reset Config.resetRegs) st) st
    t.fault = none ∧ t.nmiPending = false ∧ t.cycles = 0 ∧ t.pc = 0x0800 ∧ t.mem.read 0x0010 = 0x07 := by decide

/-- The decimal vectors ADC-11, ADC-13, ADC-17 (43_arithmetic.md R154). -/
theorem test_add_dec :
    addDec 0x99 0x01 false = ⟨0x00, true, false, false, true⟩ ∧ addDec 0x58 0x46 true = ⟨0x05, true, true, false, true⟩ ∧
    addDec 0x0F 0x0F false = ⟨0x14, false, false, false, false⟩ := by decide

/-- The decimal vectors SBC-9, SBC-12, SBC-13 (43_arithmetic.md R157). -/
theorem test_sub_dec :
    subDec 0x00 0x01 true = ⟨0x99, true, false, false, false⟩ ∧ subDec 0x21 0x34 true = ⟨0x87, true, false, false, false⟩ ∧
    subDec 0x0A 0x0B true = ⟨0x99, true, false, false, false⟩ := by decide

/-- The very next step after `withFetchWord` runs the word's instruction, from a faulted or busy machine too. -/
theorem test_with_fetch_word :
    let busy : State := { State.reset with seq := .waitCycles, wait := 3, fault := some ⟨0x02, 0x0000⟩ }
    after (State.reset.withFetchWord 16 0x05A9) [] = some ⟨0x05, 0, 0, 0, 0x0002, 0x20, 2, []⟩ ∧
    after (busy.withFetchWord 16 0x05A9) [] = some ⟨0x05, 0, 0, 0, 0x0002, 0x20, 2, []⟩ := by decide

/-- From reset with nothing placed the machine fetches at 0x0000, where the empty memory holds BRK (log 21). -/
theorem test_reset_runs_brk :
    after State.reset [0x0100, 0x01FF, 0x01FE] = some ⟨0, 0, 0, 0xFD, 0x0000, 0x24, 7, [0x00, 0x02, 0x30]⟩ := by decide

/-! ### Witnesses: the hypotheses of every statement that has some, met together -/

theorem witness_DecodeOfEncodeIsTheInstruction :
    (Instr.lda (.mem (.indirectIndexed 0xFF))).wellFormed = true ∧ (Instr.absent 0xCB).wellFormed = true := by decide

theorem witness_EncodeOfDecodeIsTheBytesRead :
    decode [0x6D, 0xFF, 0x00, 0x60] = .ok (.adc (.mem (.absolute 0xFF 0x00)), [0x60]) := by decide

/-- One opcode of each length. -/
theorem witness_FirstByteFixesTheLength :
    decode (0xEA :: [] ++ [0x01]) = .ok (.nop, [0x01]) ∧ decode (0xA9 :: [0x01] ++ []) = .ok (.lda (.immediate 0x01), []) ∧
    decode (0x4C :: [0x34, 0x12] ++ []) = .ok (.jmp 0x34 0x12, []) := by decide

theorem witness_CanonicalMemoriesAreEqualIfTheyReadAlike :
    Memory.wf [(0, 0x01), (65535, 0xFF)] = true ∧ ∀ a : Word, Memory.read [(0, 0x01)] a = Memory.read [(0, 0x01)] a :=
  ⟨by decide, fun _ => rfl⟩

/-- The last index that does not cross and the first that does. -/
theorem witness_PageCrossedIffThePageChanges :
    indexed (.absoluteX 0xF0 0x12) { State.reset with x := 0x0F } = some (0x12F0, 0x0F) ∧
    indexed (.absoluteY 0xF0 0x12) { State.reset with y := 0x10 } = some (0x12F0, 0x10) ∧
    indexed (.indirectIndexed 0x40) State.reset = some (0x0000, 0x00) := by decide

/-- The greatest and the least valid operands. -/
theorem witness_DecimalAdditionOfValidDigits :
    ((0x99 : Byte).toNat / 16 ≤ 9 ∧ (0x99 : Byte).toNat % 16 ≤ 9) ∧
    ((0x00 : Byte).toNat / 16 ≤ 9 ∧ (0x00 : Byte).toNat % 16 ≤ 9) := by decide

theorem witness_DecimalSubtractionOfValidDigits :
    ((0x90 : Byte).toNat / 16 ≤ 9 ∧ (0x90 : Byte).toNat % 16 ≤ 9) ∧
    ((0x09 : Byte).toNat / 16 ≤ 9 ∧ (0x09 : Byte).toNat % 16 ≤ 9) := by decide

/-- The last entry of the list it runs over, as in the two witnesses like it below. -/
theorem witness_ShiftsAndRotates :
    (Instr.ror, rorByte) ∈ [(Instr.asl, aslByte), (Instr.lsr, lsrByte), (Instr.rol, rolByte), (Instr.ror, rorByte)] := by
  simp

theorem witness_BranchesTestOneFlag :
    (Instr.bvs 0x80, (0x70 : Byte), FlagName.v, true) ∈
      [(Instr.bcc 0x80, (0x90 : Byte), FlagName.c, false), (Instr.bcs 0x80, 0xB0, FlagName.c, true),
       (Instr.beq 0x80, 0xF0, FlagName.z, true), (Instr.bne 0x80, 0xD0, FlagName.z, false),
       (Instr.bmi 0x80, 0x30, FlagName.n, true), (Instr.bpl 0x80, 0x10, FlagName.n, false),
       (Instr.bvc 0x80, 0x50, FlagName.v, false), (Instr.bvs 0x80, 0x70, FlagName.v, true)] := by decide

/-- The last entry of each of its lists. -/
theorem witness_FlagInstructionsAndNoOperations :
    (Instr.nop, (0xEA : Byte)) ∈ [(Instr.clc, (0x18 : Byte)), (Instr.sec, 0x38), (Instr.cli, 0x58), (Instr.sei, 0x78),
      (Instr.cld, 0xD8), (Instr.sed, 0xF8), (Instr.clv, 0xB8), (Instr.nop, 0xEA)] ∧
    (0xE2 : Byte) ∈ ([0x80, 0x82, 0x89, 0xC2, 0xE2] : List Byte) ∧ (0x64 : Byte) ∈ ([0x04, 0x44, 0x64] : List Byte) ∧
    (0xF4 : Byte) ∈ ([0x14, 0x34, 0x54, 0x74, 0xD4, 0xF4] : List Byte) ∧
    (0xFC : Byte) ∈ ([0x0C, 0x1C, 0x3C, 0x5C, 0x7C, 0xDC, 0xFC] : List Byte) := by decide

theorem witness_ShiftCombinations :
    (Instr.sre, lsrByte, fun x y : Byte => x ^^^ y) ∈
      [(Instr.slo, aslByte, fun x y : Byte => x ||| y), (Instr.rla, rolByte, fun x y : Byte => x &&& y),
       (Instr.sre, lsrByte, fun x y : Byte => x ^^^ y)] := by simp

/-- A boundary for each of its three clauses. -/
theorem witness_BoundaryAfterEveryInstruction :
    let nmi : State := { start 0xFFFF [0xEA] [] with nmiPending := true, irqPending := true }
    let irq : State := { start 0x0200 [0x58] [] with irqPending := true, p := Status.ofByte 0x04 }
    let masked : State := { start 0x0200 [0x78] [] with irqPending := true }
    (nmi.seq = .fetchOpcode ∧ nmi.fault = none ∧ nmi.inputs = [] ∧ nmi.fetched.isAbsent = false) ∧
    (irq.seq = .fetchOpcode ∧ irq.fault = none ∧ irq.inputs = [] ∧ irq.fetched.isAbsent = false ∧
      (next (step irq) irq).p.i = false) ∧
    (masked.seq = .fetchOpcode ∧ masked.fault = none ∧ masked.inputs = [] ∧ masked.fetched.isAbsent = false ∧
      (next (step masked) masked).p.i = true) := by decide

theorem witness_ServiceStepEntersTheHandler :
    let st := startService .irq State.reset
    st.seq = .serviceInterrupt ∧ st.fault = none ∧ st.inputs = [] ∧ st.wait = 7 := by decide

/-- An absent fetch at the last address, a faulted state, a populated instruction. -/
theorem witness_OnlyAnAbsentFetchFaults :
    let st := start 0xFFFF [0x02] []
    let faulted : State := { st with fault := some ⟨0x02, 0xFFFF⟩ }
    (st.seq = .fetchOpcode ∧ st.fault = none ∧ st.fetched.isAbsent = true) ∧ faulted.fault = some ⟨0x02, 0xFFFF⟩ ∧
    Instr.brk.isAbsent = false := by decide

theorem witness_HaltFreezesAllButTheRequests :
    let st : State := { State.reset with inputs := [{ actions := [.nmiReq, .irqReq], halt := true }] }
    st.inputs = { actions := [.nmiReq, .irqReq], halt := true } :: [] := by decide

/-- A halted tick, a tick that does not complete, and a service. -/
theorem witness_RequestsAreLatchedAtAnyTick :
    let st := start 0x0200 [0xEA] []
    (next (tick true st) st).completed = false ∧ (next (tick false st) st).completed = false ∧
      tick false st = .next (next (tick false st) st) ∧ (startService .nmi st).seq = .serviceInterrupt ∧
      (startService .nmi st).fault = none := ⟨by decide, by decide, rfl, rfl, rfl⟩

/-- At FetchOpcode, faulted, and in between. -/
theorem witness_HostWritesOnlyAtABoundary :
    let faulted : State := { State.reset with fault := some ⟨0x02, 0x0000⟩ }
    let busy : State := { State.reset with seq := .executeFinal }
    State.reset.seq = .fetchOpcode ∧ faulted.fault ≠ none ∧ busy.seq ≠ .fetchOpcode ∧ busy.fault = none := by decide

/-- A step that answers, one that is refused, one whose host writes nothing. -/
theorem witness_OnlyALateHostWriteStopsAStep :
    let late : State := { State.reset with seq := .executeFinal, inputs := [⟨[.poke (.a 0x01)], false⟩] }
    let quiet : State := { State.reset with inputs := [⟨[.irqReq], true⟩] }
    step State.reset = .next (next (step State.reset) State.reset) ∧ step late = .refused .hostWriteMidInstruction ∧
    ∀ iv rest, quiet.inputs = iv :: rest → ∀ w, HostAction.poke w ∉ iv.actions := by
  refine ⟨rfl, rfl, ?_⟩
  intro iv rest h w
  cases h
  simp

/-- A three-byte instruction over the end of the address space; an interval. -/
theorem witness_StepRunsTheDecodedInstruction :
    let st := start 0xFFFE [0x7D, 0xFF, 0x20] []
    let driven : State := { st with inputs := [⟨[.reset Config.resetRegs], true⟩] }
    st.seq = .fetchOpcode ∧ st.fault = none ∧ st.inputs = [] ∧
    decode (fetchBytes st) = .ok (.adc (.mem (.absoluteX 0xFF 0x20)), []) ∧
    (Instr.adc (.mem (.absoluteX 0xFF 0x20))).isAbsent = false ∧
    driven.inputs = ⟨[.reset Config.resetRegs], true⟩ :: [] := by decide

/-- With a page crossing, with a branch to another page and within the next instruction's page, with neither. -/
theorem witness_CyclesPerInstruction :
    let page : State := { start 0x0200 [0xFE, 0xFF, 0x20] [] with x := 0x01 }
    let far := start 0x02FC [0x10, 0x02] []
    let near := start 0x10FE [0x10, 0x05] []
    let plain := start 0x0200 [0xEA] []
    (page.seq = .fetchOpcode ∧ page.fault = none ∧ page.inputs = [] ∧ page.fetched.isAbsent = false ∧
      accessMode page.fetched = some (.absoluteX 0xFF 0x20) ∧ pageCrossed (.absoluteX 0xFF 0x20) page = true) ∧
    (far.seq = .fetchOpcode ∧ far.fault = none ∧ far.inputs = [] ∧ far.fetched.isAbsent = false ∧
      branchOf far.fetched = some ⟨.n, false, 0x02⟩ ∧ far.p.get .n = false) ∧
    (near.seq = .fetchOpcode ∧ near.fault = none ∧ near.inputs = [] ∧ near.fetched.isAbsent = false ∧
      branchOf near.fetched = some ⟨.n, false, 0x05⟩ ∧ near.p.get .n = false) ∧
    (plain.seq = .fetchOpcode ∧ plain.fault = none ∧ plain.inputs = [] ∧ plain.fetched.isAbsent = false) := by decide

theorem witness_FinalPCIsPastTheInstruction :
    let st := start 0xFFFE [0xAD, 0x34, 0x12] []
    st.seq = .fetchOpcode ∧ st.fault = none ∧ st.inputs = [] ∧ st.fetched.isAbsent = false ∧
      changesFlow st.fetched = false := by decide

/-- An instruction that writes one place and two flags. -/
theorem witness_InstructionsWriteOnlyWhatTheTableLists :
    exec .inx State.reset = .next (next (exec .inx State.reset) State.reset) ∧
    [Place.a, .y, .s, .pc, .mem, .fault].all (fun q => !(writtenPlaces .inx).contains q) = true ∧
    (writtenPlaces .tax).contains .x = true ∧ (writtenPlaces .nop).contains .x = false ∧
    (writtenFlags .inx).contains .c = false ∧ writtenAddresses .inx State.reset = [] ∧
    writtenAddresses .brk State.reset = [0x0100, 0x01FF, 0x01FE] :=
  ⟨rfl, by decide, by decide, by decide, by decide, rfl, by decide⟩

/-- A fetch, a wait, the fetch of an absent slot at the last address, a faulted tick. -/
theorem witness_OnlyCompletingTicksHaveEffects :
    let st := start 0x0200 [0xE6, 0x10] []
    let t1 := next (tick false st) st
    let t2 := next (tick false t1) t1
    let absent := start 0xFFFF [0x02] []
    let t3 := next (tick false absent) absent
    let t4 := next (tick false t3) t3
    (tick false st = .next t1 ∧ t1.completed = false ∧ st.seq = .fetchOpcode ∧ st.fault = none) ∧
    (tick false t1 = .next t2 ∧ t2.completed = false ∧ t1.seq ≠ .fetchOpcode) ∧
    (tick false absent = .next t3 ∧ t3.completed = false ∧ absent.seq = .fetchOpcode ∧ absent.fault = none) ∧
    (tick false t3 = .next t4 ∧ t4.completed = false ∧ t3.fault ≠ none) :=
  ⟨⟨rfl, by decide⟩, ⟨rfl, by decide⟩, ⟨rfl, by decide⟩, ⟨rfl, by decide⟩⟩

/-- The first and the second stall of a branch to another page. -/
theorem witness_StallsOnlyLatchTheAddress :
    let t1 := next (tick false (start 0x02FC [0x10, 0x02] [])) State.reset
    let t2 := next (tick false t1) t1
    (t1.seq = .executeFinal ∧ t1.fault = none ∧ t1.ctx.stall < stallsNeeded (latched t1) t1 ∧ t1.ctx.stall = 0) ∧
    (t2.seq = .executeFinal ∧ t2.fault = none ∧ t2.ctx.stall < stallsNeeded (latched t2) t2 ∧ t2.ctx.stall ≠ 0) := by
  decide

/-- A state for each of its five clauses. -/
theorem witness_TicksComposeToTheStep :
    let st := start 0x0200 [0xE6, 0x10] []
    let absent := start 0x0200 [0x02] []
    let waiting := next (tick false st) st
    let branch := next (tick false (start 0x02FC [0x10, 0x02] [])) State.reset
    let stalled := next (tick false branch) branch
    let service : State := { startService .nmi st with nmiPending := true }
    (st.LegalSequencer ∧ st.fault = none ∧ st.seq = .fetchOpcode ∧ st.fetched.isAbsent = false) ∧
    (absent.LegalSequencer ∧ absent.fault = none ∧ absent.seq = .fetchOpcode ∧ absent.fetched.isAbsent = true) ∧
    (waiting.LegalSequencer ∧ waiting.fault = none ∧ waiting.seq = .waitCycles) ∧
    (stalled.LegalSequencer ∧ stalled.fault = none ∧ stalled.seq = .executeFinal) ∧
    (service.LegalSequencer ∧ service.fault = none ∧ service.seq = .serviceInterrupt) := by
  refine ⟨⟨trivial, ?_⟩, ⟨trivial, ?_⟩, ⟨⟨?_, ?_, ?_, ?_, ?_⟩, ?_⟩, ⟨⟨?_, ?_, ?_, ?_, ?_⟩, ?_⟩, ⟨⟨?_, ?_, ?_, ?_⟩, ?_⟩⟩
  all_goals decide

/-- A step and a tick from a sound state. -/
theorem witness_EveryStepAndTickKeepsSoundness :
    State.reset.mem.wf = true ∧ State.reset.LegalSequencer ∧
    step State.reset = .next (next (step State.reset) State.reset) ∧
    clock State.reset = .next (next (clock State.reset) State.reset) := ⟨by decide, trivial, rfl, rfl⟩

theorem witness_ResetIsSound : (start 0x0200 [0xEA] []).mem.wf = true := by decide

/-- The last entry of each list it runs over. -/
theorem witness_NominalCyclesByMnemonicAndMode :
    Instr.eor ∈ [Instr.lda, .adc, .sbc, .cmp, .and, .ora, .eor] ∧ Instr.cpy ∈ [Instr.cpx, .cpy] ∧
    Instr.dec ∈ [Instr.inc, .dec] ∧ Instr.ror ∈ [Instr.asl, .lsr, .rol, .ror] ∧
    Instr.isc ∈ [Instr.slo, .rla, .sre, .rra, .dcp, .isc] ∧
    Instr.nop ∈ [Instr.tax, .tay, .txa, .tya, .tsx, .txs, .inx, .iny, .dex, .dey, .clc, .sec, .cli, .sei, .cld, .sed,
      .clv, .nop] ∧
    (Instr.brk, 7) ∈ [(Instr.pha, 3), (.php, 3), (.pla, 4), (.plp, 4), (.rts, 6), (.rti, 6), (.brk, 7)] ∧
    Instr.sbcAlias 0xFF ∈ [Instr.bcc 0xFF, .bcs 0xFF, .beq 0xFF, .bne 0xFF, .bmi 0xFF, .bpl 0xFF, .bvc 0xFF, .bvs 0xFF,
      .alr 0xFF, .arr 0xFF, .xaa 0xFF, .sbcAlias 0xFF] ∧
    (Instr.jsr 0xFF 0xFF, 6) ∈ [(Instr.jmp 0xFF 0xFF, 3), (.jmpIndirect 0xFF 0xFF, 5), (.jsr 0xFF 0xFF, 6)] ∧
    (0x2B : Byte) ∈ ([0x0B, 0x2B] : List Byte) ∧ (0xE2 : Byte) ∈ ([0x80, 0x82, 0x89, 0xC2, 0xE2] : List Byte) ∧
    (0x64 : Byte) ∈ ([0x04, 0x44, 0x64] : List Byte) ∧
    (0xF4 : Byte) ∈ ([0x14, 0x34, 0x54, 0x74, 0xD4, 0xF4] : List Byte) ∧
    (0xFC : Byte) ∈ ([0x0C, 0x1C, 0x3C, 0x5C, 0x7C, 0xDC, 0xFC] : List Byte) := by simp

/-- An absent fetch and a populated one; an end of a run; a faulted machine whose host goes on without a reset. -/
theorem witness_RunsEndWhereTheHostSaysAndNeverFaulted :
    let absent := start 0x0200 [0x02] []
    let plain := start 0x0200 [0xEA] []
    let faulted : State := { absent with fault := some ⟨0x02, 0x0200⟩, inputs := [⟨[.poke (.pc 0x0300), .nmiReq], false⟩] }
    (absent.LegalSequencer ∧ absent.fault = none ∧ absent.seq = .fetchOpcode ∧ absent.fetched.isAbsent = true) ∧
    (plain.LegalSequencer ∧ plain.fault = none ∧ ¬ (plain.seq = .fetchOpcode ∧ plain.fetched.isAbsent = true)) ∧
    plain.FinishedAt 0x0200 ∧ faulted.Faulted ∧ faulted.NoResetToCome := by
  refine ⟨⟨trivial, by decide⟩, ⟨trivial, by decide⟩, ⟨⟨rfl, rfl⟩, rfl⟩, nofun, ?_⟩
  intro iv h r
  simp only [List.mem_singleton] at h
  subst h
  simp

/-- A fetch, the last wait, a completing operation, the first and the last tick of a service. -/
theorem witness_EachTickDoesItsStatesWork :
    let st := start 0xFFFE [0x6D, 0xFF, 0x20] []
    let wait : State := next (ticks 2 st) st
    let last : State := next (ticks 3 st) st
    let service : State := { startService .nmi st with nmiPending := true }
    let enter : State := next (ticks 6 service) service
    (st.fault = none ∧ st.seq = .fetchOpcode ∧ st.fetched.isAbsent = false) ∧
    (wait.fault = none ∧ wait.seq = .waitCycles ∧ wait.wait = 1) ∧
    (last.fault = none ∧ last.seq = .executeFinal ∧ last.wait = 0 ∧ (latched last).isAbsent = false ∧
      stallsNeeded (latched last) last = last.ctx.stall ∧ tick false last = .next (next (tick false last) last)) ∧
    (service.fault = none ∧ service.seq = .serviceInterrupt ∧ service.wait = 7 ∧ service.pending service.svc = true) ∧
    (enter.fault = none ∧ enter.seq = .serviceInterrupt ∧ enter.wait = 1 ∧ enter.pending enter.svc = true) :=
  ⟨by decide, by decide, ⟨by decide, by decide, by decide, by decide, by decide, rfl⟩, by decide, by decide⟩

end Sys2Proof.Tests
end

section
/-! SUPPORT. What an operation may write (10_state.md R24), as a relation between two states with one rule per shared
operation: an instruction's frame is the rules chained along its Operation. -/

namespace Sys2Proof.Machine

/-- A flag after a write to any flag. -/
theorem Status.get_set (p : Status) (f g : FlagName) (b : Bool) :
    (p.set f b).get g = if g = f then b else p.get g := by
  cases f <;> cases g <;> rfl

/-- `t` differs from `st` at most in the listed places, in the bytes at the listed addresses and in the listed flags;
nothing of the rest of the unit changes, and memory is still canonical if it was. -/
structure WritesOnly (ps : List Place) (as : List Word) (fs : List FlagName) (st t : State) : Prop where
  unit : SameUnit st t
  a : .a ∉ ps → t.a = st.a
  x : .x ∉ ps → t.x = st.x
  y : .y ∉ ps → t.y = st.y
  s : .s ∉ ps → t.s = st.s
  pc : .pc ∉ ps → t.pc = st.pc
  mem : .mem ∉ ps → t.mem = st.mem
  fault : .fault ∉ ps → t.fault = st.fault
  bytes : ∀ b, b ∉ as → t.mem.read b = st.mem.read b
  flags : ∀ f, f ∉ fs → t.p.get f = st.p.get f
  wf : st.mem.wf = true → t.mem.wf = true

namespace WritesOnly

/-! ### Nothing written -/

theorem refl {ps : List Place} {as : List Word} {fs : List FlagName} (st : State) : WritesOnly ps as fs st st :=
  { unit := ⟨rfl, rfl, rfl, rfl, rfl, rfl, rfl, rfl, rfl, rfl, rfl, rfl, rfl, rfl⟩
    a := fun _ => rfl, x := fun _ => rfl, y := fun _ => rfl, s := fun _ => rfl, pc := fun _ => rfl
    mem := fun _ => rfl, fault := fun _ => rfl, bytes := fun _ _ => rfl, flags := fun _ _ => rfl, wf := id }

variable {ps : List Place} {as : List Word} {fs : List FlagName} {st t : State}

/-! ### One write -/

theorem setA (h : WritesOnly ps as fs st t) (v : Byte) (ha : .a ∈ ps := by simp [writtenPlaces]) :
    WritesOnly ps as fs st (t.setA v) :=
  { h with a := fun hn => absurd ha hn }

theorem setX (h : WritesOnly ps as fs st t) (v : Byte) (hx : .x ∈ ps := by simp [writtenPlaces]) :
    WritesOnly ps as fs st (t.setX v) :=
  { h with x := fun hn => absurd hx hn }

theorem setY (h : WritesOnly ps as fs st t) (v : Byte) (hy : .y ∈ ps := by simp [writtenPlaces]) :
    WritesOnly ps as fs st (t.setY v) :=
  { h with y := fun hn => absurd hy hn }

theorem setS (h : WritesOnly ps as fs st t) (v : Byte) (hs : .s ∈ ps := by simp [writtenPlaces]) :
    WritesOnly ps as fs st (t.setS v) :=
  { h with s := fun hn => absurd hs hn }

theorem setPC (h : WritesOnly ps as fs st t) (v : Word) (hpc : .pc ∈ ps := by simp [writtenPlaces]) :
    WritesOnly ps as fs st (t.setPC v) :=
  { h with pc := fun hn => absurd hpc hn }

theorem raiseUnknownOpcode (h : WritesOnly ps as fs st t) (op : Byte)
    (hf : .fault ∈ ps := by simp [writtenPlaces]) : WritesOnly ps as fs st (raiseUnknownOpcode op t) :=
  { h with fault := fun hn => absurd hf hn }

theorem writeByte (h : WritesOnly ps as fs st t) (a : Word) (v : Byte)
    (hm : .mem ∈ ps := by simp [writtenPlaces]) (ha : a ∈ as := by simp [writtenAddresses]) :
    WritesOnly ps as fs st (t.writeByte a v) :=
  { h with
    mem := fun hn => absurd hm hn
    bytes := fun b hb =>
      (Memory.read_write_other t.mem v (ne_of_mem_of_not_mem ha hb).symm).trans (h.bytes b hb)
    wf := fun hw => Memory.write_wf a v (h.wf hw) }

theorem setStatus (h : WritesOnly ps as fs st t) (p : Status) (hp : ∀ f, f ∉ fs → p.get f = t.p.get f) :
    WritesOnly ps as fs st (t.setStatus p) :=
  { h with flags := fun f hf => (hp f hf).trans (h.flags f hf) }

/-! ### Flags -/

theorem setFlag (h : WritesOnly ps as fs st t) (f : FlagName) (b : Bool) (hf : f ∈ fs := by simp [writtenFlags]) :
    WritesOnly ps as fs st (t.setFlag f b) :=
  h.setStatus _ fun g hg => by rw [Status.get_set, if_neg (ne_of_mem_of_not_mem hf hg).symm]

theorem setNZ (h : WritesOnly ps as fs st t) (v : Byte)
    (hn : .n ∈ fs := by simp [writtenFlags]) (hz : .z ∈ fs := by simp [writtenFlags]) :
    WritesOnly ps as fs st (t.setNZ v) :=
  (h.setFlag .n (bit v 7) hn).setFlag .z (v == 0) hz

/-- A whole new P, from an instruction whose flags are all six. -/
theorem setAllFlags (h : WritesOnly ps as fs st t) (p : Status)
    (hall : ∀ f, f ∈ fs := by intro f; cases f <;> simp [writtenFlags]) : WritesOnly ps as fs st (t.setStatus p) :=
  h.setStatus p fun f hf => absurd (hall f) hf

/-! ### Arithmetic and logic on A -/

theorem setAlu (h : WritesOnly ps as fs st t) (r : AluResult) (ha : .a ∈ ps := by simp [writtenPlaces])
    (hn : .n ∈ fs := by simp [writtenFlags]) (hv : .v ∈ fs := by simp [writtenFlags])
    (hz : .z ∈ fs := by simp [writtenFlags]) (hc : .c ∈ fs := by simp [writtenFlags]) :
    WritesOnly ps as fs st (t.setAlu r) :=
  ((((h.setA r.r ha).setFlag .n r.n hn).setFlag .v r.v hv).setFlag .z r.z hz).setFlag .c r.c hc

theorem compareByte (h : WritesOnly ps as fs st t) (r m : Byte) (hn : .n ∈ fs := by simp [writtenFlags])
    (hz : .z ∈ fs := by simp [writtenFlags]) (hc : .c ∈ fs := by simp [writtenFlags]) :
    WritesOnly ps as fs st (compareByte r m t) :=
  (h.setFlag .c _ hc).setNZ _ hn hz

/-! ### The stack -/

theorem push (h : WritesOnly ps as fs st t) (v : Byte) (hm : .mem ∈ ps := by simp [writtenPlaces])
    (hs : .s ∈ ps := by simp [writtenPlaces]) (ha : stackAddr t.s ∈ as := by simp [writtenAddresses, push_eq]) :
    WritesOnly ps as fs st (push v t) :=
  (h.writeByte _ v hm ha).setS _ hs

theorem popMove (h : WritesOnly ps as fs st t) (hs : .s ∈ ps := by simp [writtenPlaces]) :
    WritesOnly ps as fs st (popMove t) :=
  h.setS _ hs

/-! ### Branches -/

theorem branch (h : WritesOnly ps as fs st t) (b : Branch) (hpc : .pc ∈ ps := by simp [writtenPlaces]) :
    WritesOnly ps as fs st (branch b t) := by
  unfold Machine.branch
  split
  · exact h.setPC _ hpc
  · exact h

/-! ### What is never written -/

theorem seq (h : WritesOnly ps as fs st t) : t.seq = st.seq := h.unit.1

end WritesOnly

/-- Every instruction has a next state, and it writes what the table of 10_state.md R24 lists and no more. -/
theorem exec_writesOnly (i : Instr) (st : State) :
    ∃ t, exec i st = .next t ∧ WritesOnly (writtenPlaces i) (writtenAddresses i st) (writtenFlags i) st t := by
  have same : WritesOnly (writtenPlaces i) (writtenAddresses i st) (writtenFlags i) st st := .refl st
  cases i with
  | lda m | txa | tya | xaa op1 => exact ⟨_, rfl, (same.setA _).setNZ _⟩
  | ldx m | tax | tsx | inx | dex => exact ⟨_, rfl, (same.setX _).setNZ _⟩
  | ldy m | tay | iny | dey => exact ⟨_, rfl, (same.setY _).setNZ _⟩
  | lax m => exact ⟨_, rfl, ((same.setA _).setX _).setNZ _⟩
  | sta m | stx m | sty m | sax m => exact ⟨_, rfl, same.writeByte _ _⟩
  | txs => exact ⟨_, rfl, same.setS _⟩
  | adc m | sbc m | sbcAlias op1 => exact ⟨_, rfl, same.setAlu _⟩
  | cmp m | cpx m | cpy m => exact ⟨_, rfl, same.compareByte _ _⟩
  | inc m | dec m => exact ⟨_, rfl, (same.writeByte _ _).setNZ _⟩
  | and m | ora m | eor m => exact ⟨_, rfl, (same.setA _).setNZ _⟩
  | bit m => exact ⟨_, rfl, same.setStatus _ fun f => by cases f <;> simp [writtenFlags]⟩
  | asl m | lsr m | rol m | ror m =>
    cases m with
    | accumulator => exact ⟨_, rfl, ((same.setA _).setFlag .c _).setNZ _⟩
    | mem m => exact ⟨_, rfl, ((same.writeByte _ _).setFlag .c _).setNZ _⟩
  | bcc op1 | bcs op1 | beq op1 | bne op1 | bmi op1 | bpl op1 | bvc op1 | bvs op1 => exact ⟨_, rfl, same.branch _⟩
  | jmp op1 op2 | jmpIndirect op1 op2 => exact ⟨_, rfl, same.setPC _⟩
  | jsr op1 op2 => exact ⟨_, rfl, ((same.push _).push _).setPC _⟩
  | rts => exact ⟨_, rfl, same.popMove.popMove.setPC _⟩
  | pha | php => exact ⟨_, rfl, same.push _⟩
  | pla => exact ⟨_, rfl, (same.popMove.setA _).setNZ _⟩
  | plp => exact ⟨_, rfl, same.popMove.setAllFlags _⟩
  | clc | sec | cli | sei | cld | sed | clv => exact ⟨_, rfl, same.setFlag _ _⟩
  | nop | dop _ _ | top _ _ _ => exact ⟨_, rfl, same⟩
  | brk =>
    have third : stackAddr (st.s - 1 - 1) ∈ writtenAddresses .brk st := by simp [writtenAddresses, sub_sub]
    exact ⟨_, rfl, ((((same.push _).push _).push _ (ha := third)).setFlag .i _).setPC _⟩
  | rti => exact ⟨_, rfl, ((same.popMove.setAllFlags _).popMove.popMove).setPC _⟩
  | slo m | rla m | sre m => exact ⟨_, rfl, (((same.writeByte _ _).setFlag .c _).setA _).setNZ _⟩
  | rra m => exact ⟨_, rfl, ((same.writeByte _ _).setFlag .c _).setAlu _⟩
  | dcp m => exact ⟨_, rfl, (same.writeByte _ _).compareByte _ _⟩
  | isc m => exact ⟨_, rfl, (same.writeByte _ _).setAlu _⟩
  | anc slot op1 => exact ⟨_, rfl, ((same.setA _).setNZ _).setFlag .c _⟩
  | alr op1 => exact ⟨_, rfl, ((same.setA _).setFlag .c _).setNZ _⟩
  | arr op1 => exact ⟨_, rfl, (((same.setA _).setNZ _).setFlag .c _).setFlag .v _⟩
  | absent slot => exact ⟨_, rfl, same.raiseUnknownOpcode _⟩

/-- The operation of an instruction writes what the table of 10_state.md R24 lists and no more. -/
theorem WritesOnly.of_exec {i : Instr} {st t : State} (h : exec i st = .next t) :
    WritesOnly (writtenPlaces i) (writtenAddresses i st) (writtenFlags i) st t := by
  obtain ⟨u, hu, w⟩ := exec_writesOnly i st
  obtain rfl : u = t := Host.Outcome.next.inj (hu.symm.trans h)
  exact w

end Sys2Proof.Machine
end

section
/-! SUPPORT. The location S names (10_state.md R13) and the byte image of P (R16, R18, R19) as numbers and bits. -/

namespace Sys2Proof.Machine

theorem stackAddr_toNat (s : Byte) : (stackAddr s).toNat = 0x100 + s.toNat := by
  rw [stackAddr, word_toNat]; rfl

/-- The byte image of P, bit by bit (10_state.md R18). -/
@[simp] theorem Status.byte_bits (p : Status) (b : Bool) :
    (p.byte b)[7] = p.n ∧ (p.byte b)[6] = p.v ∧ (p.byte b)[5] = true ∧
    (p.byte b)[4] = b ∧ (p.byte b)[3] = p.d ∧ (p.byte b)[2] = p.i ∧
    (p.byte b)[1] = p.z ∧ (p.byte b)[0] = p.c := by
  obtain ⟨n, v, d, i, z, c⟩ := p
  revert n v d i z c b
  decide

/-- The byte image of P as a number: each bit at its weight. -/
theorem Status.byte_toNat (p : Status) (b : Bool) :
    (p.byte b).toNat = 128 * p.n.toNat + 64 * p.v.toNat + 32 + 16 * b.toNat + 8 * p.d.toNat + 4 * p.i.toNat +
      2 * p.z.toNat + p.c.toNat := by
  obtain ⟨n, v, d, i, z, c⟩ := p
  revert n v d i z c b
  decide

/-- Loading the byte image of P back gives P: bits 5 and 4 hold no flag. -/
theorem Status.ofByte_byte (p : Status) (b : Bool) : Status.ofByte (p.byte b) = p := by
  simp [Status.ofByte, bit]

end Sys2Proof.Machine
end

section
/-! SUPPORT. The program counter along one step (10_state.md R15): the fetch moves it past the instruction, whose
length the opcode byte alone fixes, and only a control-flow operation moves it again. -/

namespace Sys2Proof

/-- What a function says of the decoded instruction, read off its values along the opcode map. -/
theorem map_decodeOp {α : Type} (f : Instr → α) (op l h : Byte) :
    f (decodeOp op l h) =
      (((slotRows l h).map (List.map f)).getD (op.toNat / 16) []).getD (op.toNat % 16) (f (.absent op)) := by
  rw [decodeOp, ← List.map_nil (f := f), List.getD_map, List.getD_map]

/-- The opcode byte alone fixes how many operand bytes there are. -/
theorem operandBytes_length_decodeOp (op l h : Byte) : (decodeOp op l h).operandBytes.length = operandCount op := by
  have hrows : (slotRows l h).map (List.map fun i => i.operandBytes.length) =
      (slotRows 0 0).map (List.map fun i => i.operandBytes.length) := rfl
  rw [operandCount, map_decodeOp fun i => i.operandBytes.length, hrows, ← map_decodeOp fun i => i.operandBytes.length]

end Sys2Proof

namespace Sys2Proof.Machine

theorem latch_pc (st : State) : (latch st).pc = st.pc + BitVec.ofNat 16 st.fetched.length := by
  have hlen : st.fetched.length = 1 + operandCount (st.mem.read st.pc) :=
    congrArg (1 + ·) (operandBytes_length_decodeOp _ _ _)
  rw [hlen, BitVec.ofNat_add, ← BitVec.add_assoc]
  rfl

/-- A boundary check leaves PC as it is. -/
@[simp] theorem boundaryCheck_pc (st : State) : (boundaryCheck st).pc = st.pc := by
  rcases boundaryCheck_cases st with ⟨-, e⟩ | ⟨-, -, -, e⟩ | ⟨-, -, e⟩ <;> rw [e] <;> rfl

/-- And so does the end of an instruction, fault or none. -/
@[simp] theorem conclude_pc (st : State) : (conclude st).pc = st.pc := by
  rcases h : st.fault with _ | f
  · rw [conclude_of_no_fault h, boundaryCheck_pc]
  · rw [conclude_of_fault h, idle_pc]

/-- An instruction other than control flow completes and leaves PC where the fetch has put it. -/
theorem complete_pc {i : Instr} (hi : changesFlow i = false) (st : State) :
    ∃ t, complete i st = .next t ∧ t.pc = st.pc := by
  obtain ⟨u, hu, w⟩ := exec_writesOnly i st
  have hpc : Place.pc ∉ writtenPlaces i := by simpa [changesFlow] using hi
  exact ⟨conclude u, by rw [complete, hu, andThen_next], (conclude_pc u).trans (w.pc hpc)⟩

/-- With nothing from the host, a step at an instruction boundary is one whole instruction. -/
theorem step_of_atFetch {st : State} (h : st.AtFetch) (hin : st.inputs = []) : step st = stepInstr st := by
  obtain ⟨hs, hf⟩ := h
  simp [step, withInputs, hin, stepAt, hs, hf]

theorem stepInstr_of_populated {st : State} (h : st.fetched.isAbsent = false) :
    stepInstr st = complete st.fetched (readyToExecute (beginInstr (latch st))) := by
  have h' : ¬ (latched (latch st)).isAbsent = true := Bool.eq_false_iff.mp h
  exact if_neg h'

end Sys2Proof.Machine
end

section
/-! SUPPORT. The machine's invariant (10_state.md R25 to R30): what a legal sequencer is in each state of `seq`, and
that each part of a tick, of a step and of the host's input keeps memory canonical and the sequencer legal. -/

namespace Sys2Proof.Machine

/-! ### The legal states, one by one -/

theorem State.legalSequencer_of_fetch {st : State} (h : st.seq = .fetchOpcode) : st.LegalSequencer := by
  simp [State.LegalSequencer, h]

theorem State.legalSequencer_iff_of_wait {st : State} (h : st.seq = .waitCycles) : st.LegalSequencer ↔
    st.fault = none ∧ (latched st).isAbsent = false ∧ 1 ≤ st.wait ∧ st.wait ≤ 6 ∧
      st.ctx = { stall := 0, ea := none } := by
  simp only [State.LegalSequencer, h]

theorem State.legalSequencer_iff_of_execute {st : State} (h : st.seq = .executeFinal) : st.LegalSequencer ↔
    st.fault = none ∧ (latched st).isAbsent = false ∧ st.wait = 0 ∧ st.ctx.stall ≤ stallsNeeded (latched st) st ∧
      (1 ≤ st.ctx.stall → st.ctx.ea = effectiveAddress (latched st) st) := by
  simp only [State.LegalSequencer, h]

theorem State.legalSequencer_iff_of_service {st : State} (h : st.seq = .serviceInterrupt) : st.LegalSequencer ↔
    st.fault = none ∧ 1 ≤ st.wait ∧ st.wait ≤ serviceTicks ∧ st.pending st.svc = true := by
  simp only [State.LegalSequencer, h]

/-- The Faulted condition stands at FetchOpcode. -/
theorem State.LegalSequencer.fetch_of_fault {st : State} (h : st.LegalSequencer) (hf : st.fault ≠ none) :
    st.seq = .fetchOpcode := by
  rcases Seq.cases st.seq with hs | hs | hs | hs
  · exact hs
  · exact absurd ((State.legalSequencer_iff_of_wait hs).mp h).1 hf
  · exact absurd ((State.legalSequencer_iff_of_execute hs).mp h).1 hf
  · exact absurd ((State.legalSequencer_iff_of_service hs).mp h).1 hf

/-- An instruction in progress is populated. -/
theorem State.LegalSequencer.populated {st : State} (h : st.LegalSequencer)
    (hs : st.seq = .waitCycles ∨ st.seq = .executeFinal) : (latched st).isAbsent = false := by
  rcases hs with hs | hs
  · exact ((State.legalSequencer_iff_of_wait hs).mp h).2.1
  · exact ((State.legalSequencer_iff_of_execute hs).mp h).2.1

/-- The cycle count, the outputs, the intervals to come and requests that arrive do not matter to a legal sequencer. -/
theorem State.LegalSequencer.of_ports {st : State} (h : st.LegalSequencer) (nmi irq : Bool) (cycles : Nat)
    (completed : Bool) (error : Option UnknownOpcode) (inputs : List Interval) :
    ({ st with
        nmiPending := st.nmiPending || nmi, irqPending := st.irqPending || irq
        cycles := cycles, completed := completed, error := error, inputs := inputs } : State).LegalSequencer := by
  rcases Seq.cases st.seq with hs | hs | hs | hs
  · exact State.legalSequencer_of_fetch hs
  · exact (State.legalSequencer_iff_of_wait (by exact hs)).mpr ((State.legalSequencer_iff_of_wait hs).mp h)
  · obtain ⟨hf, hp, hw, hst, hea⟩ := (State.legalSequencer_iff_of_execute hs).mp h
    refine (State.legalSequencer_iff_of_execute (by exact hs)).mpr ⟨hf, hp, hw, ?_, fun h1 => ?_⟩
    · rw [stallsNeeded_congr (st := st)]
      exacts [hst, rfl, rfl, rfl, rfl, rfl, rfl]
    · rw [effectiveAddress_congr (st := st)]
      exacts [hea h1, rfl, rfl, rfl, rfl, rfl]
  · obtain ⟨hf, h1, h7, hp⟩ := (State.legalSequencer_iff_of_service hs).mp h
    refine (State.legalSequencer_iff_of_service (by exact hs)).mpr ⟨hf, h1, h7, ?_⟩
    cases hk : st.svc <;> rw [hk] at hp <;> exact (Bool.or_eq_true _ _).mpr (.inl hp)

/-! ### The end of an instruction -/

/-- A boundary check after an instruction that raised no fault. -/
theorem boundaryCheck_sound {st : State} (hm : st.mem.wf = true) (hf : st.fault = none) : (boundaryCheck st).Sound := by
  rcases boundaryCheck_cases st with ⟨hp, e⟩ | ⟨-, hp, -, e⟩ | ⟨-, -, e⟩ <;> rw [e] <;> refine ⟨hm, ?_⟩
  · exact (State.legalSequencer_iff_of_service rfl).mpr ⟨hf, by simp [startService, serviceTicks], le_rfl, hp⟩
  · exact (State.legalSequencer_iff_of_service rfl).mpr ⟨hf, by simp [startService, serviceTicks], le_rfl, hp⟩
  · exact State.legalSequencer_of_fetch rfl

/-- The end of an instruction: a fault may have been raised at FetchOpcode only. -/
theorem conclude_sound {st : State} (hm : st.mem.wf = true) (hf : st.fault ≠ none → st.seq = .fetchOpcode) :
    (conclude st).Sound := by
  rcases h : st.fault with _ | f
  · rw [conclude_of_no_fault h]
    exact boundaryCheck_sound hm h
  · rw [conclude_of_fault h]
    exact ⟨hm, State.legalSequencer_of_fetch (hf (by simp [h]))⟩

/-- Only an absent slot's operation writes the fault. -/
theorem fault_mem_writtenPlaces {i : Instr} (h : .fault ∈ writtenPlaces i) : i.isAbsent = true := by
  cases i with
  | absent slot => rfl
  | asl m | lsr m | rol m | ror m => cases m <;> simp [writtenPlaces] at h
  | _ => simp [writtenPlaces] at h

/-- An instruction's operation and the end of its tick. -/
theorem complete_sound {i : Instr} {st t : State} (hm : st.mem.wf = true) (hf : st.fault = none)
    (ha : i.isAbsent = true → st.seq = .fetchOpcode) (h : complete i st = .next t) : t.Sound := by
  obtain ⟨u, hu, ht⟩ := andThen_eq_next h
  obtain rfl := Host.Outcome.next.inj ht
  have w := WritesOnly.of_exec hu
  refine conclude_sound (w.wf hm) fun hn => ?_
  have hfault : .fault ∈ writtenPlaces i := by
    by_contra hno
    exact hn ((w.fault hno).trans hf)
  exact w.seq.trans (ha (fault_mem_writtenPlaces hfault))

/-! ### The ticks -/

/-- A halted or faulted tick or step. -/
theorem State.Sound.idle {st : State} (h : st.Sound) (error : Option UnknownOpcode) : (idle error st).Sound :=
  ⟨h.1, by simpa [Machine.idle] using h.2.of_ports false false st.cycles false error st.inputs⟩

/-- No nominal count is above 8, so `wait` is at most 6 (10_state.md R26). -/
theorem nominalCycles_le (op : Byte) : nominalCycles op ≤ 8 := by
  revert op
  decide

/-- The fetch of a populated slot. -/
theorem beginInstr_sound {st : State} (hm : st.mem.wf = true) (hf : st.fault = none)
    (hp : (latched st).isAbsent = false) : (beginInstr st).Sound := by
  refine ⟨hm, ?_⟩
  have hle := nominalCycles_le st.ir
  by_cases hw : nominalCycles st.ir - 2 = 0
  · have hs : (beginInstr st).seq = .executeFinal := if_pos hw
    exact (State.legalSequencer_iff_of_execute hs).mpr
      ⟨hf, hp, hw, Nat.zero_le _, fun h1 => absurd h1 (Nat.not_succ_le_zero 0)⟩
  · have hs : (beginInstr st).seq = .waitCycles := if_neg hw
    exact (State.legalSequencer_iff_of_wait hs).mpr
      ⟨hf, hp, Nat.one_le_iff_ne_zero.mpr hw, Nat.sub_le_sub_right hle 2, rfl⟩

/-- A WaitCycles tick. -/
theorem waitTick_sound {st : State} (h : st.Sound) (hs : st.seq = .waitCycles) : (waitTick st).Sound := by
  obtain ⟨hf, hp, -, h6, hc⟩ := (State.legalSequencer_iff_of_wait hs).mp h.2
  refine ⟨h.1, ?_⟩
  by_cases hw : st.wait - 1 = 0
  · have hs' : (waitTick st).seq = .executeFinal := if_pos hw
    refine (State.legalSequencer_iff_of_execute hs').mpr ⟨hf, hp, hw, ?_, fun h1 => ?_⟩
    · simp [waitTick, hc]
    · simp [waitTick, hc] at h1
  · have hs' : (waitTick st).seq = .waitCycles := if_neg hw
    exact (State.legalSequencer_iff_of_wait hs').mpr
      ⟨hf, hp, Nat.one_le_iff_ne_zero.mpr hw, (Nat.sub_le _ 1).trans h6, hc⟩

/-- After a stall `ctx.ea` holds the address, if it did after the stalls before. -/
theorem stallCtx_ea {i : Instr} {st : State} (h : 1 ≤ st.ctx.stall → st.ctx.ea = effectiveAddress i st) :
    (stallCtx i st).ea = effectiveAddress i st := by
  simp only [stallCtx]
  split
  case isTrue => rfl
  case isFalse h0 => exact h (Nat.one_le_iff_ne_zero.mpr h0)

/-- A stalled invocation: one stall more, and the address latched by the first. -/
theorem stall_sound {st : State} (h : st.Sound) (hs : st.seq = .executeFinal)
    (hlt : st.ctx.stall < stallsNeeded (latched st) st) :
    ({ st with cycles := st.cycles + 1, ctx := stallCtx (latched st) st, completed := false, error := none } :
      State).Sound := by
  obtain ⟨hf, hp, hw, -, hea⟩ := (State.legalSequencer_iff_of_execute hs).mp h.2
  refine ⟨h.1, (State.legalSequencer_iff_of_execute (by exact hs)).mpr ⟨hf, hp, hw, ?_, fun _ => ?_⟩⟩
  · rw [stallsNeeded_congr (st := st)]
    exacts [hlt, rfl, rfl, rfl, rfl, rfl, rfl]
  · rw [effectiveAddress_congr (st := st)]
    exacts [stallCtx_ea hea, rfl, rfl, rfl, rfl, rfl]

/-- The last tick of a service, which needs no legal sequencer before. -/
theorem enterService_sound {st : State} (hm : st.mem.wf = true) : (enterService st).Sound :=
  ⟨interruptEntry_wf (k := st.svc) hm, State.legalSequencer_of_fetch rfl⟩

/-- A ServiceInterrupt tick. -/
theorem serviceTick_sound {st : State} (h : st.Sound) (hs : st.seq = .serviceInterrupt) : (serviceTick st).Sound := by
  obtain ⟨hf, -, h7, hp⟩ := (State.legalSequencer_iff_of_service hs).mp h.2
  simp only [serviceTick]
  split
  case isTrue hw =>
    exact ⟨h.1, (State.legalSequencer_iff_of_service (by exact hs)).mpr ⟨hf, hw, (Nat.sub_le _ 1).trans h7, hp⟩⟩
  case isFalse => exact enterService_sound h.1

theorem tick_sound {halt : Bool} {st t : State} (h : st.Sound) (ht : tick halt st = .next t) : t.Sound := by
  cases halt with
  | true =>
    obtain rfl := Host.Outcome.next.inj ht
    exact h.idle none
  | false =>
    rcases tick_cases ht with ⟨f, -, rfl⟩ | ⟨hf, ⟨hs, -, hc⟩ | ⟨-, hp, rfl⟩ | ⟨hs, rfl⟩ | ⟨hs, hlt, rfl⟩ |
      ⟨hs, -, hc⟩ | ⟨hs, rfl⟩⟩
    · exact h.idle (some f)
    · exact complete_sound (st := latch st) h.1 hf (fun _ => hs) hc
    · exact beginInstr_sound (st := latch st) h.1 hf hp
    · exact waitTick_sound h hs
    · exact stall_sound h hs hlt
    · exact complete_sound (st := { st with cycles := st.cycles + 1 }) h.1 hf
        (fun ha => by simp [h.2.populated (.inr hs)] at ha) hc
    · exact serviceTick_sound h hs

/-! ### The step -/

/-- The rest of a populated instruction in one step, from any point of it. -/
theorem finishInstr_sound {st t : State} (hm : st.mem.wf = true) (hf : st.fault = none)
    (hp : (latched st).isAbsent = false) (h : finishInstr st = .next t) : t.Sound :=
  complete_sound (st := readyToExecute st) hm hf (fun ha => by simp [hp] at ha) h

theorem stepInstr_sound {st t : State} (hm : st.mem.wf = true) (hf : st.fault = none) (hs : st.seq = .fetchOpcode)
    (h : stepInstr st = .next t) : t.Sound := by
  simp only [stepInstr] at h
  split at h
  case isTrue => exact complete_sound (st := latch st) hm hf (fun _ => hs) h
  case isFalse hp => exact finishInstr_sound (st := beginInstr (latch st)) hm hf (Bool.eq_false_iff.mpr hp) h

theorem stepAt_sound {halt : Bool} {st t : State} (h : st.Sound) (ht : stepAt halt st = .next t) : t.Sound := by
  cases halt with
  | true =>
    obtain rfl := Host.Outcome.next.inj ht
    exact h.idle none
  | false =>
    rcases stepAt_cases ht with ⟨f, -, rfl⟩ | ⟨hf, ⟨hs, hi⟩ | ⟨hs, hi⟩ | ⟨-, rfl⟩⟩
    · exact h.idle (some f)
    · exact stepInstr_sound h.1 hf hs hi
    · exact finishInstr_sound h.1 hf (h.2.populated hs) hi
    · exact enterService_sound h.1

/-! ### What the host does -/

theorem applyReset_sound (r : ResetRegs) {st : State} (hm : st.mem.wf = true) : (applyReset r st).Sound :=
  ⟨hm, State.legalSequencer_of_fetch rfl⟩

/-- A request that arrives can only make a legal sequencer's request pending. -/
theorem State.Sound.request {st : State} (h : st.Sound) (k : Interrupt) : (request k st).Sound := by
  cases k with
  | nmi =>
    have legal := h.2.of_ports true false st.cycles st.completed st.error st.inputs
    exact ⟨h.1, by simpa [Machine.request] using legal⟩
  | irq =>
    have legal := h.2.of_ports false true st.cycles st.completed st.error st.inputs
    exact ⟨h.1, by simpa [Machine.request] using legal⟩

/-- A debug write touches registers, flags and memory; the sequencer stands at FetchOpcode when it is allowed. -/
theorem applyPoke_sound (w : Poke) {st : State} (hm : st.mem.wf = true) (hs : st.seq = .fetchOpcode) :
    (applyPoke w st).Sound := by
  cases w with
  | mem a v => exact ⟨Memory.write_wf a v hm, State.legalSequencer_of_fetch hs⟩
  | _ => exact ⟨hm, State.legalSequencer_of_fetch hs⟩

theorem hostAct_sound {act : HostAction} {st t : State} (h : st.Sound) (ht : hostAct act st = .next t) : t.Sound := by
  cases act with
  | reset r => exact Host.Outcome.next.inj ht ▸ applyReset_sound r h.1
  | nmiReq => exact Host.Outcome.next.inj ht ▸ h.request .nmi
  | irqReq => exact Host.Outcome.next.inj ht ▸ h.request .irq
  | poke w =>
    simp only [hostAct] at ht
    split at ht
    case isTrue hok =>
      have hs : st.seq = .fetchOpcode := by
        simp only [pokeAllowed, Bool.or_eq_true, decide_eq_true_eq] at hok
        exact hok.elim id fun hf => h.2.fetch_of_fault (Option.isSome_iff_ne_none.mp hf)
      exact Host.Outcome.next.inj ht ▸ applyPoke_sound w h.1 hs
    case isFalse => cases ht

theorem hostActs_sound {acts : List HostAction} {st t : State} (h : st.Sound) (ht : hostActs acts st = .next t) :
    t.Sound := by
  induction acts generalizing st with
  | nil => exact Host.Outcome.next.inj ht ▸ h
  | cons act acts ih =>
    obtain ⟨u, hu, hs⟩ := andThen_eq_next ht
    exact ih (hostAct_sound h hu) hs

/-- What keeps soundness at either level of `halt` keeps it after the host's next interval. -/
theorem withInputs_sound {run : Bool → State → Result} {st t : State}
    (hrun : ∀ {halt : Bool} {u v : State}, u.Sound → run halt u = .next v → v.Sound) (h : st.Sound)
    (ht : withInputs run st = .next t) : t.Sound := by
  simp only [withInputs] at ht
  split at ht
  case h_1 => exact hrun h ht
  case h_2 iv rest _ =>
    obtain ⟨u, hu, hv⟩ := andThen_eq_next ht
    have hrest : ({ st with inputs := rest } : State).Sound :=
      ⟨h.1, by simpa using h.2.of_ports false false st.cycles st.completed st.error rest⟩
    exact hrun (hostActs_sound hrest hu) hv

end Sys2Proof.Machine
end

section
/-! SUPPORT. The statements of 10_state.md, settled. -/

open Sys2Proof Sys2Proof.Machine

/-- Settles O56: what the host does before, then the tick or the step, each keeps memory canonical and the sequencer
legal. -/
theorem everyStepAndTickKeepsSoundness : Obligations.EveryStepAndTickKeepsSoundness := by
  intro st t h ht
  rcases ht with ht | ht
  · exact withInputs_sound stepAt_sound h ht
  · exact withInputs_sound tick_sound h ht

/-- Settles O8: a push is one write at S and S less one, a pop S plus one and one read there; the wrap is the byte's. -/
theorem stackWritesThenDecrements : Obligations.StackWritesThenDecrements := by
  intro v st
  refine ⟨⟨rfl, ?_, fun b => ?_⟩, ⟨rfl, ?_, ?_⟩, ?_, ?_⟩
  · rw [push_eq, BitVec.toNat_sub]
    simp [Nat.add_comm]
  · simp only [push_eq, Memory.read_write, ← stackAddr_toNat, BitVec.toNat_inj]
  · rw [popMove_eq, BitVec.toNat_add]
    rfl
  · rw [popMove_eq, ← stackAddr_toNat]
    rfl
  · simp [popByte, push_eq]
  · simp [popMove_eq, push_eq]

/-- Settles O51: the fetch has moved PC past the instruction, and neither its operation nor the boundary check moves
it. -/
theorem finalPCIsPastTheInstruction : Obligations.FinalPCIsPastTheInstruction := by
  intro st hfetch hin hpop hflow
  obtain ⟨t, ht, hpc⟩ := complete_pc hflow (readyToExecute (beginInstr (latch st)))
  refine ⟨t, by rw [step_of_atFetch hfetch hin, stepInstr_of_populated hpop, ht], ?_⟩
  have hpc' : t.pc = st.pc + BitVec.ofNat 16 st.fetched.length := hpc.trans (latch_pc st)
  rw [hpc', BitVec.toNat_add, BitVec.toNat_ofNat]
  omega

/-- Settles O52: the frame of `exec` is `exec_writesOnly`, whose rules follow each instruction's Operation. -/
theorem instructionsWriteOnlyWhatTheTableLists : Obligations.InstructionsWriteOnlyWhatTheTableLists := by
  intro i st t h
  have w := WritesOnly.of_exec h
  exact ⟨w.unit, w.a, w.x, w.y, w.s, w.pc, w.mem, w.bytes, w.fault, w.flags⟩

/-- Settles O32: the eight bits of the image one by one; a bit from 8 on is in no byte. -/
theorem statusByteLayout : Obligations.StatusByteLayout := by
  refine ⟨fun p b => ⟨p.byte_toNat b, p.ofByte_byte b⟩, fun v b k => ?_⟩
  match k with
  | 0 | 1 | 2 | 3 | 4 | 5 | 6 | 7 => simp [Status.ofByte, bit]
  | k + 8 => simp

/-- Settles O57: both stand at FetchOpcode, where every sequencer is legal, and no reset writes memory. -/
theorem resetIsSound : Obligations.ResetIsSound :=
  ⟨⟨Memory.nil_wf, State.legalSequencer_of_fetch rfl⟩, fun r _ hm => applyReset_sound r hm⟩

end

section
/-! SUPPORT. The canonical form of memory (20_memory.md R40, R41): the list is read off the bytes at its addresses. The
first entry is the least location that reads as written, and its tail reads as the whole does but for that location. -/

namespace Sys2Proof.Machine

theorem Memory.wfFrom_cons {n k : Nat} {v : Byte} {m : Memory} :
    Memory.wfFrom n ((k, v) :: m) = true ↔
      n ≤ k ∧ k < memSize ∧ v ≠ Config.unwritten ∧ Memory.wfFrom (k + 1) m = true := by
  simp [Memory.wfFrom, and_assoc]

@[simp] theorem Memory.get_cons_same (k : Nat) (v : Byte) (m : Memory) : Memory.get ((k, v) :: m) k = v :=
  if_pos rfl

theorem Memory.get_cons_other {k a : Nat} (v : Byte) (m : Memory) (h : k ≠ a) :
    Memory.get ((k, v) :: m) a = m.get a :=
  if_neg h

/-- Nothing is listed below the least address. -/
theorem Memory.get_of_lt {n a : Nat} {m : Memory} (h : Memory.wfFrom n m = true) (ha : a < n) :
    m.get a = Config.unwritten := by
  induction m generalizing n with
  | nil => rfl
  | cons e m ih =>
    obtain ⟨k, v⟩ := e
    obtain ⟨hn, -, -, hm⟩ := Memory.wfFrom_cons.mp h
    have hak : a < k := ha.trans_le hn
    rw [Memory.get_cons_other v m hak.ne', ih hm (Nat.lt_succ_of_lt hak)]

/-- The tail reads as the whole list, but for the first entry's location. -/
theorem Memory.get_tail {k : Nat} {m : Memory} (v : Byte) (h : Memory.wfFrom (k + 1) m = true) (a : Nat) :
    m.get a = if k = a then Config.unwritten else Memory.get ((k, v) :: m) a := by
  split
  case isTrue hk => exact Memory.get_of_lt h (by omega)
  case isFalse hk => rw [Memory.get_cons_other v m hk]

/-- A first entry is seen by a read: a list without an entry up to its address reads another byte there. -/
theorem Memory.get_head_ne {n k : Nat} {v : Byte} {m m' : Memory} (h : Memory.wfFrom n ((k, v) :: m) = true)
    (h' : Memory.wfFrom (k + 1) m' = true) : Memory.get ((k, v) :: m) k ≠ m'.get k := by
  obtain ⟨-, -, hv, -⟩ := Memory.wfFrom_cons.mp h
  rwa [Memory.get_cons_same, Memory.get_of_lt h' (Nat.lt_succ_self k)]

/-- The first addresses of lists that read alike: neither lies below the other, by symmetry. -/
theorem Memory.head_le_of_alike {n n' k k' : Nat} {v v' : Byte} {m m' : Memory}
    (h : Memory.wfFrom n ((k, v) :: m) = true) (h' : Memory.wfFrom n' ((k', v') :: m') = true)
    (alike : ∀ a < memSize, Memory.get ((k, v) :: m) a = Memory.get ((k', v') :: m') a) : k' ≤ k := by
  by_contra hlt
  obtain ⟨-, hk, -, -⟩ := Memory.wfFrom_cons.mp h
  obtain ⟨-, hk', hv', hm'⟩ := Memory.wfFrom_cons.mp h'
  exact Memory.get_head_ne h (Memory.wfFrom_cons.mpr ⟨Nat.lt_of_not_le hlt, hk', hv', hm'⟩) (alike k hk)

/-- A canonical list is determined by its bytes: entry by entry, the first addresses agree, then the bytes there, then
the tails. -/
theorem Memory.wfFrom_ext {n n' : Nat} {m m' : Memory} (h : Memory.wfFrom n m = true)
    (h' : Memory.wfFrom n' m' = true) (alike : ∀ a < memSize, m.get a = m'.get a) : m = m' := by
  induction m generalizing n n' m' with
  | nil =>
    cases m' with
    | nil => rfl
    | cons e' m' =>
      obtain ⟨-, hk', -, -⟩ := Memory.wfFrom_cons.mp h'
      exact absurd (alike e'.1 hk').symm (Memory.get_head_ne h' rfl)
  | cons e m ih =>
    obtain ⟨k, v⟩ := e
    obtain ⟨-, hk, -, hm⟩ := Memory.wfFrom_cons.mp h
    cases m' with
    | nil => exact absurd (alike k hk) (Memory.get_head_ne h rfl)
    | cons e' m' =>
      obtain ⟨k', v'⟩ := e'
      obtain ⟨-, -, -, hm'⟩ := Memory.wfFrom_cons.mp h'
      obtain rfl : k = k' :=
        le_antisymm (Memory.head_le_of_alike h' h fun a ha => (alike a ha).symm) (Memory.head_le_of_alike h h' alike)
      obtain rfl : v = v' := by simpa using alike k hk
      have tails : m = m' := ih hm hm' fun a ha => by
        rw [Memory.get_tail v hm, Memory.get_tail v hm', alike a ha]
      rw [tails]

end Sys2Proof.Machine
end

section
/-! SUPPORT. The addresses of a word's two bytes as numbers (20_memory.md R43, R44). -/

namespace Sys2Proof.Machine

@[simp] theorem zext16_toNat (b : Byte) : (zext16 b).toNat = b.toNat :=
  BitVec.toNat_setWidth_of_le (by decide)

theorem Memory.read16_toNat (m : Memory) (a : Word) :
    (m.read16 a).toNat = (m.read a).toNat + 256 * (m.read (a + 1)).toNat := by
  rw [Memory.read16, word_toNat, Nat.mul_comm, Nat.add_comm]

/-- The address after a word's first byte wraps at the top of memory. -/
theorem word_succ_toNat (a : Word) : (a + 1).toNat = (a.toNat + 1) % 65536 := BitVec.toNat_add a 1

/-- The address of a zero-page pointer's high byte: within the page with `ZP_PTR_WRAP`, else the next one, which from
0xFF is 0x0100. -/
theorem pointerHigh_toNat (wrap : Bool) (z : Byte) :
    (if wrap then zext16 (z + 1) else zext16 z + 1).toNat = if wrap then (z.toNat + 1) % 256 else z.toNat + 1 := by
  cases wrap with
  | true => exact (zext16_toNat (z + 1)).trans (BitVec.toNat_add z 1)
  | false =>
    have hz := z.isLt
    have hnext : (zext16 z + 1).toNat = z.toNat + 1 := by
      rw [word_succ_toNat, zext16_toNat]
      omega
    exact hnext

theorem read16ZP_toNat (z : Byte) (st : State) :
    (read16ZP z st).toNat = (st.mem.get z.toNat).toNat +
      256 * (st.mem.get (if st.params.zpPtrWrap then (z.toNat + 1) % 256 else z.toNat + 1)).toNat := by
  rw [read16ZP, word_toNat, Memory.read, Memory.read, pointerHigh_toNat, zext16_toNat, Nat.mul_comm, Nat.add_comm]

end Sys2Proof.Machine
end

section
/-! SUPPORT. The statements of 20_memory.md, settled. -/

open Sys2Proof Sys2Proof.Machine

/-- Settles O6: every location below `memSize` is a 16-bit address, and the bytes there determine a canonical list. -/
theorem canonicalMemoriesAreEqualIfTheyReadAlike : Obligations.CanonicalMemoriesAreEqualIfTheyReadAlike :=
  fun _ _ h h' alike => Memory.wfFrom_ext h h' fun a ha => alike (BitVec.ofNatLT a ha)

/-- Settles O7: the two bytes' addresses as numbers. -/
theorem wordsLieLittleEndian : Obligations.WordsLieLittleEndian := by
  refine ⟨fun m a => ?_, read16ZP_toNat⟩
  rw [Memory.read16_toNat, Memory.read, Memory.read, word_succ_toNat]

end

section
/-! SUPPORT. The two descriptions of the forms agree on every instruction: the *Operands* lines of files 42_ to 47_ and
the table by mnemonic (30_encoding.md R64). -/

namespace Sys2Proof.Laws.Forms

theorem wellFormed_eq_isSome_opcode (i : Instr) : i.wellFormed = i.opcode.isSome :=
  show Statement i from i.casesOn lda ldx ldy sta stx sty tax tay txa tya tsx txs
    adc sbc cmp cpx cpy inc dec inx iny dex dey
    and ora eor bit asl lsr rol ror
    bcc bcs beq bne bmi bpl bvc bvs jmp jmpIndirect jsr rts
    pha php pla plp clc sec cli sei cld sed clv nop brk rti
    slo rla sre rra dcp isc lax sax anc alr arr xaa sbcAlias dop top absent

end Sys2Proof.Laws.Forms
end

section
/-! SUPPORT. The opcode map (30_encoding.md R63) against the table by mnemonic (R64): what the decoded instruction of an
opcode byte has for opcode and operand bytes, and that an instruction's opcode and operand bytes name it. -/

namespace Sys2Proof

/-! ### From the opcode byte to the instruction -/

/-- Row `r`, column `c` of the opcode map holds the instruction of opcode `16 r + c`. -/
theorem opcode_slotRows (l h : Byte) : (slotRows l h).map (List.map Instr.opcode) =
    (List.range 16).map fun r => (List.range 16).map fun c => some (BitVec.ofNat 8 (16 * r + c)) := rfl

theorem opcode_decodeOp (op l h : Byte) : (decodeOp op l h).opcode = some op := by
  have hrow : op.toNat / 16 < 16 := by omega
  have hcol : op.toNat % 16 < 16 := by omega
  rw [map_decodeOp Instr.opcode, opcode_slotRows]
  simp [hrow, hcol, Nat.div_add_mod]

theorem wellFormed_decodeOp (op l h : Byte) : (decodeOp op l h).wellFormed = true := by
  rw [Laws.Forms.wellFormed_eq_isSome_opcode, opcode_decodeOp]
  rfl

/-- The operand bytes of the decoded instruction are the first `operandCount op` of the two it was given. -/
theorem operandBytes_decodeOp (op l h : Byte) : (decodeOp op l h).operandBytes = [l, h].take (operandCount op) := by
  have hrows : (slotRows l h).map (List.map Instr.operandBytes) =
      (slotRows 0 0).map (List.map fun i => [l, h].take i.operandBytes.length) := rfl
  rw [map_decodeOp Instr.operandBytes, hrows]
  exact (map_decodeOp (fun i => [l, h].take i.operandBytes.length) op 0 0).symm

theorem operandCount_le_two (op : Byte) : operandCount op ≤ 2 := by
  rw [operandCount, operandBytes_decodeOp]
  exact List.length_take_le' _ _

/-! ### From the instruction to the opcode byte and back -/

theorem mem_of_slot_opcode {slots : List Byte} {slot op : Byte}
    (h : (if slots.contains slot then some slot else none) = some op) : slot ∈ slots ∧ slot = op := by
  simpa using h

theorem decodeOp_ancSlots (l h : Byte) : ∀ slot ∈ ancSlots, decodeOp slot l h = .anc slot l :=
  List.map_inj_left.mp rfl

theorem decodeOp_dopSlots (l h : Byte) : ∀ slot ∈ dopSlots, decodeOp slot l h = .dop slot l :=
  List.map_inj_left.mp rfl

theorem decodeOp_topSlots (l h : Byte) : ∀ slot ∈ topSlots, decodeOp slot l h = .top slot l h :=
  List.map_inj_left.mp rfl

theorem decodeOp_absentSlots (l h : Byte) : ∀ slot ∈ absentSlots, decodeOp slot l h = .absent slot :=
  List.map_inj_left.mp rfl

/-- The instruction of an opcode byte followed by the list of its operand bytes. -/
def decodeWith (op : Byte) (operands : List Byte) : Instr := decodeOp op (operands.getD 0 0) (operands.getD 1 0)

/-- The slot of an instruction's opcode in the map, with the instruction's operand bytes, is the instruction: one entry
of the table by mnemonic after the other. -/
theorem decodeWith_of_opcode {i : Instr} {op : Byte} (h : i.opcode = some op) : decodeWith op i.operandBytes = i := by
  cases i with
  | lda m | ldx m | ldy m | adc m | sbc m | cmp m | cpx m | cpy m | and m | ora m | eor m =>
    cases m with
    | immediate op1 => cases h; rfl
    | mem m => cases m <;> cases h <;> rfl
  | asl m | lsr m | rol m | ror m =>
    cases m with
    | accumulator => cases h; rfl
    | mem m => cases m <;> cases h <;> rfl
  | sta m | stx m | sty m | inc m | dec m | bit m | slo m | rla m | sre m | rra m | dcp m | isc m | lax m | sax m =>
    cases m <;> cases h <;> rfl
  | anc slot op1 =>
    obtain ⟨hslot, rfl⟩ := mem_of_slot_opcode h
    exact decodeOp_ancSlots op1 0 slot hslot
  | dop slot op1 =>
    obtain ⟨hslot, rfl⟩ := mem_of_slot_opcode h
    exact decodeOp_dopSlots op1 0 slot hslot
  | top slot op1 op2 =>
    obtain ⟨hslot, rfl⟩ := mem_of_slot_opcode h
    exact decodeOp_topSlots op1 op2 slot hslot
  | absent slot =>
    obtain ⟨hslot, rfl⟩ := mem_of_slot_opcode h
    exact decodeOp_absentSlots 0 0 slot hslot
  | _ => cases h; rfl

theorem length_operandBytes_of_opcode {i : Instr} {op : Byte} (hop : i.opcode = some op) :
    i.operandBytes.length = operandCount op :=
  (congrArg (·.operandBytes.length) (decodeWith_of_opcode hop)).symm.trans (operandBytes_length_decodeOp op _ _)

theorem Instr.isAbsent_iff (i : Instr) : i.isAbsent = true ↔ ∃ slot, i = .absent slot := by
  cases i <;> simp [Instr.isAbsent]

/-- An opcode byte decodes to an absent instruction exactly in the 26 absent slots (30_encoding.md R66). -/
theorem isAbsent_decodeOp_iff (op l h : Byte) : (decodeOp op l h).isAbsent = true ↔ op ∈ absentSlots := by
  rw [Instr.isAbsent_iff]
  constructor
  · rintro ⟨slot, hslot⟩
    have hop := opcode_decodeOp op l h
    rw [hslot] at hop
    obtain ⟨hmem, rfl⟩ := mem_of_slot_opcode hop
    exact hmem
  · exact fun hop => ⟨op, decodeOp_absentSlots l h op hop⟩

end Sys2Proof
end

section
/-! SUPPORT. The decoder over a byte string (30_encoding.md R60, R61): it reads the opcode byte and as many operand
bytes as that byte calls for. -/

namespace Sys2Proof

theorem operands_cases {op : Byte} {operands : List Byte} (hlen : operands.length = operandCount op) :
    operands = [] ∨ (∃ l, operands = [l]) ∨ ∃ l h, operands = [l, h] := by
  have hle := operandCount_le_two op
  rw [← hlen] at hle
  match operands, hle with
  | [], _ => exact .inl rfl
  | [l], _ => exact .inr (.inl ⟨l, rfl⟩)
  | [l, h], _ => exact .inr (.inr ⟨l, h, rfl⟩)

theorem decode_of_length {op : Byte} {operands : List Byte} (hlen : operands.length = operandCount op)
    (rest : List Byte) : decode (op :: operands ++ rest) = .ok (decodeWith op operands, rest) := by
  rcases operands_cases hlen with rfl | ⟨l, rfl⟩ | ⟨l, h, rfl⟩ <;> simp [decode, decodeWith, ← hlen]

/-- All that the decoder can answer with success. -/
theorem decode_cases {bytes rest : List Byte} {i : Instr} (hdec : decode bytes = .ok (i, rest)) :
    ∃ op operands, operands.length = operandCount op ∧ bytes = op :: operands ++ rest ∧
      i = decodeWith op operands := by
  cases bytes with
  | nil => cases hdec
  | cons op bytes =>
    simp only [decode] at hdec
    split at hdec
    case h_1 hn => cases hdec; exact ⟨op, [], hn.symm, rfl, rfl⟩
    case h_2 l _ hn => cases hdec; exact ⟨op, [l], hn.symm, rfl, rfl⟩
    case h_3 l h _ hn => cases hdec; exact ⟨op, [l, h], hn.symm, rfl, rfl⟩
    case h_4 => cases hdec

theorem operandBytes_decodeWith {op : Byte} {operands : List Byte} (hlen : operands.length = operandCount op) :
    (decodeWith op operands).operandBytes = operands := by
  rw [decodeWith, operandBytes_decodeOp, ← hlen]
  rcases operands_cases hlen with rfl | ⟨l, rfl⟩ | ⟨l, h, rfl⟩ <;> rfl

/-- Encoding what an opcode byte and its operand bytes decode to gives those bytes. -/
theorem encode_decodeWith {op : Byte} {operands : List Byte} (hlen : operands.length = operandCount op) :
    encode (decodeWith op operands) = some (op :: operands) := by
  rw [encode, operandBytes_decodeWith hlen, decodeWith, opcode_decodeOp]
  rfl

end Sys2Proof
end

section
/-! SUPPORT. The statements of 30_encoding.md, settled. -/

open Sys2Proof

/-- Settles O1: a well-formed instruction has an opcode, which calls for as many operand bytes as the instruction has
and whose slot of the map, given them, is the instruction. -/
theorem decodeOfEncodeIsTheInstruction : Obligations.DecodeOfEncodeIsTheInstruction := by
  intro i hwf
  obtain ⟨op, hop⟩ := Option.isSome_iff_exists.mp ((Laws.Forms.wellFormed_eq_isSome_opcode i).symm.trans hwf)
  refine ⟨op :: i.operandBytes, by rw [encode, hop]; rfl, fun rest => ?_⟩
  rw [decode_of_length (length_operandBytes_of_opcode hop), decodeWith_of_opcode hop]

/-- Settles O2: the bytes read are the opcode byte and the operand bytes it calls for. -/
theorem encodeOfDecodeIsTheBytesRead : Obligations.EncodeOfDecodeIsTheBytesRead := by
  intro bytes rest i hdec
  obtain ⟨op, operands, hlen, rfl, rfl⟩ := decode_cases hdec
  exact ⟨wellFormed_decodeOp _ _ _, op :: operands, encode_decodeWith hlen, rfl⟩

/-- Settles O3: each slot of the map holds an instruction whose opcode is the slot. -/
theorem absentSlotsAreTheTwentySix : Obligations.AbsentSlotsAreTheTwentySix :=
  fun op l h => ⟨isAbsent_decodeOp_iff op l h, wellFormed_decodeOp op l h, opcode_decodeOp op l h⟩

/-- Settles O4: the length is one more than the opcode byte's operand count. -/
theorem firstByteFixesTheLength : Obligations.FirstByteFixesTheLength := by
  refine fun op => ⟨operandCount op, operandCount_le_two op, fun operands rest hlen => ?_⟩
  have hbytes := operandBytes_decodeWith hlen
  exact ⟨decodeWith op operands, decode_of_length hlen rest, hbytes, by rw [Instr.length, hbytes, hlen]⟩

/-- Settles O5: the decoder run on each word. -/
theorem wordsWrittenOutDecode : Obligations.WordsWrittenOutDecode :=
  ⟨rfl, rfl, rfl, rfl, rfl, rfl, rfl, rfl, rfl, rfl, rfl, rfl, rfl, rfl⟩

end

section
/-! SUPPORT. What a tick and a step are in each state of the sequencer, an equation a case (40_sequencer.md R82 to R89,
R94); `tick_cases` and `stepAt_cases` say the same as an inversion. -/

namespace Sys2Proof.Machine

/-! ### The tick -/

theorem tick_of_fault {st : State} {f : UnknownOpcode} (hf : st.fault = some f) :
    tick false st = .next (idle (some f) st) := by
  simp [tick, hf]

theorem tick_of_fetch {st : State} (h : st.AtFetch) : tick false st = fetchTick st := by
  simp [tick, h.1, h.2]

theorem tick_of_wait {st : State} (hs : st.seq = .waitCycles) (hf : st.fault = none) :
    tick false st = .next (waitTick st) := by
  simp [tick, hs, hf]

theorem tick_of_execute {st : State} (hs : st.seq = .executeFinal) (hf : st.fault = none) :
    tick false st = executeTick st := by
  simp [tick, hs, hf]

theorem tick_of_service {st : State} (hs : st.seq = .serviceInterrupt) (hf : st.fault = none) :
    tick false st = .next (serviceTick st) := by
  simp [tick, hs, hf]

/-! ### The parts of a tick -/

theorem fetchTick_of_populated {st : State} (h : st.fetched.isAbsent = false) :
    fetchTick st = .next (beginInstr (latch st)) :=
  if_neg (Bool.eq_false_iff.mp h)

theorem fetchTick_of_absent {st : State} (h : st.fetched.isAbsent = true) :
    fetchTick st = complete st.fetched (latch st) :=
  if_pos h

/-- A stalled invocation of the instruction in progress (40_sequencer.md R86). -/
def stallTick (st : State) : State :=
  { st with ctx := stallCtx (latched st) st, cycles := st.cycles + 1, completed := false, error := none }

theorem executeTick_of_stall {st : State} (h : st.ctx.stall < stallsNeeded (latched st) st) :
    executeTick st = .next (stallTick st) :=
  if_pos h

theorem executeTick_of_stalled {st : State} (h : stallsNeeded (latched st) st ≤ st.ctx.stall) :
    executeTick st = complete (latched st) { st with cycles := st.cycles + 1 } :=
  if_neg h.not_gt

/-- That many idle ticks of a service (40_sequencer.md R89). -/
def serviceIdle (n : Nat) (st : State) : State :=
  { st with wait := st.wait - n, cycles := st.cycles + n, completed := false, error := none }

theorem serviceTick_of_idle {st : State} (h : 2 ≤ st.wait) : serviceTick st = serviceIdle 1 st :=
  if_pos (Nat.sub_pos_of_lt h)

theorem serviceTick_of_last {st : State} (h : st.wait ≤ 1) :
    serviceTick st = enterService { st with wait := 0, cycles := st.cycles + 1 } := by
  simp [serviceTick, Nat.sub_eq_zero_of_le h]

/-! ### The step -/

theorem stepAt_of_fault {st : State} {f : UnknownOpcode} (hf : st.fault = some f) :
    stepAt false st = .next (idle (some f) st) := by
  simp [stepAt, hf]

theorem stepAt_of_fetch {st : State} (h : st.AtFetch) : stepAt false st = stepInstr st := by
  simp [stepAt, h.1, h.2]

theorem stepAt_of_instr {st : State} (hs : st.seq = .waitCycles ∨ st.seq = .executeFinal) (hf : st.fault = none) :
    stepAt false st = finishInstr st := by
  rcases hs with hs | hs <;> simp [stepAt, hs, hf]

theorem stepAt_of_service {st : State} (hs : st.seq = .serviceInterrupt) (hf : st.fault = none) :
    stepAt false st = .next (stepService st) := by
  simp [stepAt, hs, hf]

theorem stepInstr_of_absent {st : State} (h : st.fetched.isAbsent = true) :
    stepInstr st = complete st.fetched (latch st) :=
  if_pos h

/-! ### The whole machine -/

theorem withInputs_of_nil (run : Bool → State → Result) {st : State} (h : st.inputs = []) :
    withInputs run st = run false st := by
  simp [withInputs, h]

theorem withInputs_of_cons (run : Bool → State → Result) {st : State} {iv : Interval} {rest : List Interval}
    (h : st.inputs = iv :: rest) :
    withInputs run st = andThen (hostActs iv.actions { st with inputs := rest }) (run iv.halt) := by
  simp [withInputs, h]

/-! ### The entry into a handler -/

/-- The entry reads and writes neither the counters nor the outputs, and the last tick of a service sets the outputs
itself (60_exceptions.md R276). -/
theorem enterService_of_counters (st : State) (wait cycles : Nat) (completed : Bool) (error : Option UnknownOpcode) :
    enterService { st with wait := wait, cycles := cycles, completed := completed, error := error } =
      { interruptEntry st.svc st with
        seq := .fetchOpcode, wait := wait, cycles := cycles, completed := true, error := none } := by
  simp only [enterService_record, interruptEntry_record]

theorem serviceTick_of_last_record {st : State} (h : st.wait ≤ 1) :
    serviceTick st = { interruptEntry st.svc st with
      seq := .fetchOpcode, wait := 0, cycles := st.cycles + 1, completed := true, error := none } :=
  (serviceTick_of_last h).trans (enterService_of_counters st 0 _ st.completed st.error)

theorem stepService_record (st : State) :
    stepService st = { interruptEntry st.svc st with
      seq := .fetchOpcode, wait := 0, cycles := st.cycles + st.wait, completed := true, error := none } :=
  enterService_of_counters st 0 _ st.completed st.error

end Sys2Proof.Machine
end

section
/-! SUPPORT. The end of an instruction: a populated one raises no fault, keeps what no operation writes and comes to the
boundary check (40_sequencer.md R86, R88, R90); an absent one records the fault and that is all (60_exceptions.md
R272). -/

namespace Sys2Proof.Machine

/-! ### A populated instruction -/

/-- No populated instruction faults. -/
theorem exec_of_populated {i : Instr} (hi : i.isAbsent = false) (st : State) :
    ∃ t, exec i st = .next t ∧ SameUnit st t ∧ t.fault = st.fault := by
  obtain ⟨t, ht, w⟩ := exec_writesOnly i st
  exact ⟨t, ht, w.unit, w.fault fun hmem => by simp [fault_mem_writtenPlaces hmem] at hi⟩

theorem boundaryCheck_of_nmi {st : State} (hn : st.nmiPending = true) : boundaryCheck st = startService .nmi st := by
  simp [boundaryCheck, hn]

theorem boundaryCheck_of_irq {st : State} (hn : st.nmiPending = false) (hq : st.irqPending = true)
    (hi : st.p.i = false) : boundaryCheck st = startService .irq st := by
  simp [boundaryCheck, hn, hq, hi]

theorem boundaryCheck_of_none {st : State} (hn : st.nmiPending = false) (h : st.irqPending = false ∨ st.p.i = true) :
    boundaryCheck st = { st with seq := .fetchOpcode } := by
  rcases h with h | h <;> simp [boundaryCheck, hn, h]

/-- A boundary check writes the sequencer alone. -/
theorem boundaryCheck_frame (st : State) :
    boundaryCheck st = { st with
      seq := (boundaryCheck st).seq, svc := (boundaryCheck st).svc, wait := (boundaryCheck st).wait } := by
  rcases boundaryCheck_cases st with ⟨-, e⟩ | ⟨-, -, -, e⟩ | ⟨-, -, e⟩ <;> rw [e] <;> rfl

@[simp] theorem boundaryCheck_p (st : State) : (boundaryCheck st).p = st.p := by rw [boundaryCheck_frame]
@[simp] theorem boundaryCheck_nmiPending (st : State) : (boundaryCheck st).nmiPending = st.nmiPending := by
  rw [boundaryCheck_frame]
@[simp] theorem boundaryCheck_irqPending (st : State) : (boundaryCheck st).irqPending = st.irqPending := by
  rw [boundaryCheck_frame]
@[simp] theorem boundaryCheck_fault (st : State) : (boundaryCheck st).fault = st.fault := by rw [boundaryCheck_frame]
@[simp] theorem boundaryCheck_cycles (st : State) : (boundaryCheck st).cycles = st.cycles := by rw [boundaryCheck_frame]
@[simp] theorem boundaryCheck_completed (st : State) : (boundaryCheck st).completed = st.completed := by
  rw [boundaryCheck_frame]
@[simp] theorem boundaryCheck_error (st : State) : (boundaryCheck st).error = st.error := by rw [boundaryCheck_frame]
@[simp] theorem boundaryCheck_params (st : State) : (boundaryCheck st).params = st.params := by rw [boundaryCheck_frame]

/-- A populated instruction completes: the boundary check comes after its operation, which leaves the fault, the pending
bits and the cycle count alone. -/
theorem complete_of_populated {i : Instr} {st : State} (hi : i.isAbsent = false) (hf : st.fault = none) :
    ∃ u, complete i st = .next (boundaryCheck u) ∧ u.completed = true ∧ u.error = none ∧ u.fault = none ∧
      u.nmiPending = st.nmiPending ∧ u.irqPending = st.irqPending ∧ u.cycles = st.cycles := by
  obtain ⟨v, hv, hunit, hfault⟩ := exec_of_populated hi st
  obtain ⟨-, -, -, -, -, -, hnmi, hirq, -, hcycles, -⟩ := hunit
  have hnone : v.fault = none := hfault.trans hf
  exact ⟨{ v with completed := true, error := none }, by rw [complete, hv, andThen_next, conclude_of_no_fault hnone],
    rfl, rfl, hnone, hnmi, hirq, hcycles⟩

/-- And so does the boundary check. -/
theorem complete_of_populated_frame {i : Instr} {st : State} (hi : i.isAbsent = false) (hf : st.fault = none) :
    ∃ t, complete i st = .next t ∧ t.completed = true ∧ t.fault = none ∧ t.cycles = st.cycles := by
  obtain ⟨u, hc, hdone, -, hnone, -, -, hcycles⟩ := complete_of_populated hi hf
  exact ⟨boundaryCheck u, hc, by simp [hdone], by simp [hnone], by simp [hcycles]⟩

/-! ### An absent slot -/

/-- What the fault leaves: its record, and the outputs that answer it (60_exceptions.md R272). -/
def faulted (f : UnknownOpcode) (st : State) : State :=
  { st with fault := some f, completed := false, error := some f }

theorem complete_absent (slot : Byte) (st : State) :
    complete (.absent slot) st = .next (faulted { op := slot, addr := st.pc - 1 } st) := rfl

theorem operandCount_of_absent {op : Byte} (h : op ∈ absentSlots) : operandCount op = 0 := by
  rw [operandCount, decodeOp_absentSlots 0 0 op h]
  rfl

/-- The fetch of an absent slot finds the byte at PC alone. -/
theorem fetched_of_absent {st : State} (h : st.fetched.isAbsent = true) :
    st.mem.read st.pc ∈ absentSlots ∧ st.fetched = .absent (st.mem.read st.pc) := by
  have hmem : st.mem.read st.pc ∈ absentSlots := (isAbsent_decodeOp_iff _ _ _).mp h
  exact ⟨hmem, decodeOp_absentSlots _ _ _ hmem⟩

/-- And latches it alone. -/
theorem latch_of_absent {st : State} (h : st.fetched.isAbsent = true) :
    latch st = { st with ir := st.mem.read st.pc, pc := st.pc + 1 } := by
  have hcount := operandCount_of_absent (fetched_of_absent h).1
  simp [latch, hcount]

/-- What the fetch of an absent slot leaves: the opcode byte latched, PC past it, the fault with the byte's address. -/
def faultedFetch (st : State) : State :=
  faulted { op := st.mem.read st.pc, addr := st.pc } { st with ir := st.mem.read st.pc, pc := st.pc + 1 }

/-- The whole fetch of an absent slot, the same in a tick and in a step. -/
theorem complete_fetched_of_absent {st : State} (h : st.fetched.isAbsent = true) :
    complete st.fetched (latch st) = .next (faultedFetch st) := by
  rw [(fetched_of_absent h).2, complete_absent, latch_of_absent h, BitVec.add_sub_cancel]
  rfl

/-! ### Which completions answer `completed = 1` -/

/-- With no fault before, only an absent slot's completion answers `completed = 0`: it is the fault's record. -/
theorem complete_not_completed {i : Instr} {st t : State} (hf : st.fault = none) (h : complete i st = .next t)
    (ht : t.completed = false) : ∃ slot, i = .absent slot ∧ t = faulted { op := slot, addr := st.pc - 1 } st := by
  by_cases hi : i.isAbsent = true
  case pos =>
    obtain ⟨slot, rfl⟩ := (Instr.isAbsent_iff i).mp hi
    exact ⟨slot, rfl, (Host.Outcome.next.inj h).symm⟩
  case neg =>
    obtain ⟨u, hu, hdone, -⟩ := complete_of_populated_frame (Bool.eq_false_iff.mpr hi) hf
    obtain rfl : u = t := Host.Outcome.next.inj (hu.symm.trans h)
    simp [hdone] at ht

/-- All that a tick that does not complete can be (40_sequencer.md R83 to R86, R89). -/
theorem tick_not_completed_cases {st t : State} (h : tick false st = .next t) (ht : t.completed = false) :
    (∃ f, st.fault = some f ∧ t = idle (some f) st) ∨
    (st.fault = none ∧
      ((st.seq = .fetchOpcode ∧ st.fetched.isAbsent = true ∧ t = faultedFetch st) ∨
        (st.seq = .fetchOpcode ∧ st.fetched.isAbsent = false ∧ t = beginInstr (latch st)) ∨
        (st.seq = .waitCycles ∧ t = waitTick st) ∨
        (st.seq = .executeFinal ∧ st.ctx.stall < stallsNeeded (latched st) st ∧ t = stallTick st) ∨
        (st.seq = .executeFinal ∧ stallsNeeded (latched st) st ≤ st.ctx.stall ∧ ∃ slot, latched st = .absent slot ∧
          t = faulted { op := slot, addr := st.pc - 1 } { st with cycles := st.cycles + 1 }) ∨
        (st.seq = .serviceInterrupt ∧ 2 ≤ st.wait ∧ t = serviceIdle 1 st))) := by
  rcases tick_cases h with hfault | ⟨hf, ⟨hs, ha, hc⟩ | hbegin | hwait | hstall | ⟨hs, hlt, hc⟩ | ⟨hs, rfl⟩⟩
  · exact .inl hfault
  · exact .inr ⟨hf, .inl ⟨hs, ha, Host.Outcome.next.inj (hc.symm.trans (complete_fetched_of_absent ha))⟩⟩
  · exact .inr ⟨hf, .inr (.inl hbegin)⟩
  · exact .inr ⟨hf, .inr (.inr (.inl hwait))⟩
  · exact .inr ⟨hf, .inr (.inr (.inr (.inl hstall)))⟩
  · have he := complete_not_completed (st := { st with cycles := st.cycles + 1 }) hf hc ht
    exact .inr ⟨hf, .inr (.inr (.inr (.inr (.inl ⟨hs, Nat.le_of_not_lt hlt, he⟩))))⟩
  · by_cases hw : 2 ≤ st.wait
    case pos => exact .inr ⟨hf, .inr (.inr (.inr (.inr (.inr ⟨hs, hw, serviceTick_of_idle hw⟩))))⟩
    case neg =>
      rw [serviceTick_of_last (Nat.le_of_lt_succ (Nat.lt_of_not_le hw))] at ht
      cases ht

end Sys2Proof.Machine
end

section
/-! SUPPORT. The ticks of an instruction or a service against the one step (40_sequencer.md R94): each tick but the last
leaves the same step to make and one tick less to take. -/

namespace Sys2Proof.Machine

theorem ticks_succ (n : Nat) (st : State) : ticks (n + 1) st = andThen (tick false st) (ticks n) := rfl

theorem ticks_one {st t : State} (h : tick false st = .next t) : ticks 1 st = .next t := by
  rw [ticks_succ, h]
  rfl

/-! ### No operation reads the outputs -/

/-- The state with other outputs of the last tick (40_sequencer.md R80). -/
def withOutputs (completed : Bool) (error : Option UnknownOpcode) (st : State) : State :=
  { st with completed := completed, error := error }

theorem branch_withOutputs (b : Branch) (completed : Bool) (error : Option UnknownOpcode) (st : State) :
    branch b (withOutputs completed error st) = withOutputs completed error (branch b st) := by
  have htaken : b.taken (withOutputs completed error st) = b.taken st := rfl
  unfold branch
  rw [htaken]
  split <;> rfl

theorem exec_withOutputs (i : Instr) (completed : Bool) (error : Option UnknownOpcode) (st : State) :
    exec i (withOutputs completed error st) =
      andThen (exec i st) fun t => .next (withOutputs completed error t) := by
  cases i with
  | lda m | ldx m | ldy m | adc m | sbc m | cmp m | cpx m | cpy m | and m | ora m | eor m =>
    cases m with
    | immediate op1 => rfl
    | mem m => cases m <;> rfl
  | asl m | lsr m | rol m | ror m =>
    cases m with
    | accumulator => rfl
    | mem m => cases m <;> rfl
  | sta m | stx m | sty m | inc m | dec m | bit m | slo m | rla m | sre m | rra m | dcp m | isc m | lax m | sax m =>
    cases m <;> rfl
  | bcc op1 | bcs op1 | beq op1 | bne op1 | bmi op1 | bpl op1 | bvc op1 | bvs op1 =>
    exact congrArg _ (branch_withOutputs _ completed error st)
  | _ => rfl

/-- The end of an instruction writes both outputs itself. -/
theorem conclude_withOutputs (completed : Bool) (error : Option UnknownOpcode) (st : State) :
    conclude (withOutputs completed error st) = conclude st := by
  have hkeep : (withOutputs completed error st).fault = st.fault := rfl
  rcases hf : st.fault with _ | f
  · rw [conclude_of_no_fault hf, conclude_of_no_fault (hkeep.trans hf)]
    rfl
  · rw [conclude_of_fault hf, conclude_of_fault (hkeep.trans hf)]
    rfl

theorem complete_withOutputs (i : Instr) (completed : Bool) (error : Option UnknownOpcode) (st : State) :
    complete i (withOutputs completed error st) = complete i st := by
  rw [complete, complete, exec_withOutputs]
  obtain ⟨t, ht, -⟩ := exec_writesOnly i st
  rw [ht, andThen_next, andThen_next, andThen_next, conclude_withOutputs]

/-! ### The rest of an instruction -/

/-- An instruction in progress: WaitCycles with ticks of it left, or ExecuteFinal with none (10_state.md R25, R26). -/
def State.MidInstruction (st : State) : Prop :=
  st.fault = none ∧ ((st.seq = .waitCycles ∧ 1 ≤ st.wait) ∨ (st.seq = .executeFinal ∧ st.wait = 0))

/-- The ticks an instruction in progress still takes before its last: WaitCycles, then stalls. -/
def ticksBeforeLast (st : State) : Nat := st.wait + (stallsNeeded (latched st) st - st.ctx.stall)

theorem stallsNeeded_waitTick (st : State) :
    stallsNeeded (latched (waitTick st)) (waitTick st) = stallsNeeded (latched st) st :=
  stallsNeeded_congr _ rfl rfl rfl rfl rfl rfl

theorem effectiveAddress_waitTick (st : State) :
    effectiveAddress (latched (waitTick st)) (waitTick st) = effectiveAddress (latched st) st :=
  effectiveAddress_congr _ rfl rfl rfl rfl rfl

theorem readyToExecute_waitTick {st : State} (hw : 1 ≤ st.wait) :
    readyToExecute (waitTick st) = withOutputs false none (readyToExecute st) := by
  have hctx : stalledCtx (latched (waitTick st)) (waitTick st) = stalledCtx (latched st) st := by
    simp only [stalledCtx, stallsNeeded_waitTick, effectiveAddress_waitTick]
    rfl
  have hcycles : st.cycles + 1 + (st.wait - 1) = st.cycles + st.wait := by omega
  simp only [readyToExecute, withOutputs, hctx, stallsNeeded_waitTick]
  simp only [waitTick, hcycles]

theorem stallsNeeded_stallTick (st : State) :
    stallsNeeded (latched (stallTick st)) (stallTick st) = stallsNeeded (latched st) st :=
  stallsNeeded_congr _ rfl rfl rfl rfl rfl rfl

theorem effectiveAddress_stallTick (st : State) :
    effectiveAddress (latched (stallTick st)) (stallTick st) = effectiveAddress (latched st) st :=
  effectiveAddress_congr _ rfl rfl rfl rfl rfl

/-- One stall more or fewer to come, the instruction is performed in the same context. -/
theorem stalledCtx_stallTick {st : State} (hlt : st.ctx.stall < stallsNeeded (latched st) st) :
    stalledCtx (latched (stallTick st)) (stallTick st) = stalledCtx (latched st) st := by
  have hstall : (stallTick st).ctx.stall = st.ctx.stall + 1 := rfl
  have hea : (stallTick st).ctx.ea = if st.ctx.stall = 0 then effectiveAddress (latched st) st else st.ctx.ea := rfl
  simp only [stalledCtx, stallsNeeded_stallTick, if_pos hlt]
  split
  case isTrue => rw [if_neg (by omega), hea]
  case isFalse hdone =>
    have hlast : st.ctx.stall + 1 = stallsNeeded (latched st) st := by omega
    rw [← hlast]
    rfl

theorem readyToExecute_stallTick {st : State} (hlt : st.ctx.stall < stallsNeeded (latched st) st) :
    readyToExecute (stallTick st) = withOutputs false none (readyToExecute st) := by
  have hcycles : st.cycles + 1 + st.wait + (stallsNeeded (latched st) st - (st.ctx.stall + 1)) =
      st.cycles + st.wait + (stallsNeeded (latched st) st - st.ctx.stall) := by omega
  simp only [readyToExecute, withOutputs, stalledCtx_stallTick hlt, stallsNeeded_stallTick]
  simp only [stallTick, stallCtx, hcycles]

/-- What performs the operation in a state that differs in the outputs alone finishes the instruction alike. -/
theorem finishInstr_of_ready {st t : State} (hl : latched t = latched st)
    (h : readyToExecute t = withOutputs false none (readyToExecute st)) : finishInstr t = finishInstr st := by
  rw [finishInstr, finishInstr, h, hl, complete_withOutputs]

/-- A tick of an instruction in progress before its last. -/
theorem tick_before_last {st : State} (h : st.MidInstruction) (hleft : 0 < ticksBeforeLast st) :
    ∃ t, tick false st = .next t ∧ t.MidInstruction ∧ ticksBeforeLast t + 1 = ticksBeforeLast st ∧
      finishInstr t = finishInstr st := by
  obtain ⟨hf, ⟨hs, hw⟩ | ⟨hs, hw⟩⟩ := h
  · refine ⟨waitTick st, tick_of_wait hs hf, ⟨hf, ?_⟩, ?_, finishInstr_of_ready rfl (readyToExecute_waitTick hw)⟩
    · by_cases hone : st.wait - 1 = 0
      · exact .inr ⟨if_pos hone, hone⟩
      · exact .inl ⟨if_neg hone, Nat.one_le_iff_ne_zero.mpr hone⟩
    · rw [ticksBeforeLast, ticksBeforeLast, stallsNeeded_waitTick]
      simp only [waitTick]
      omega
  · have hlt : st.ctx.stall < stallsNeeded (latched st) st := by
      rw [ticksBeforeLast] at hleft
      omega
    refine ⟨stallTick st, (tick_of_execute hs hf).trans (executeTick_of_stall hlt), ⟨hf, .inr ⟨hs, hw⟩⟩, ?_,
      finishInstr_of_ready rfl (readyToExecute_stallTick hlt)⟩
    rw [ticksBeforeLast, ticksBeforeLast, stallsNeeded_stallTick]
    simp only [stallTick, stallCtx]
    omega

/-- Its last tick. -/
theorem tick_last {st : State} (h : st.MidInstruction) (hleft : ticksBeforeLast st = 0) :
    tick false st = finishInstr st := by
  rw [ticksBeforeLast] at hleft
  obtain ⟨hf, ⟨-, hw⟩ | ⟨hs, hw⟩⟩ := h
  · omega
  · have hdone : stallsNeeded (latched st) st ≤ st.ctx.stall := by omega
    have hready : readyToExecute st = { st with cycles := st.cycles + 1 } := by
      simp [readyToExecute, stalledCtx, hdone, hs, hw]
    rw [tick_of_execute hs hf, executeTick_of_stalled hdone, finishInstr, hready]

/-- The ticks left of an instruction in progress give what one step makes of it. -/
theorem ticks_eq_finishInstr {n : Nat} {st : State} (h : st.MidInstruction) (hn : ticksBeforeLast st = n) :
    ticks (n + 1) st = finishInstr st := by
  induction n generalizing st with
  | zero =>
    obtain ⟨t, ht⟩ : ∃ t, finishInstr st = .next t := by
      obtain ⟨u, hu, -⟩ := exec_writesOnly (latched st) (readyToExecute st)
      exact ⟨conclude u, by rw [finishInstr, complete, hu, andThen_next]⟩
    rw [ht]
    exact ticks_one ((tick_last h hn).trans ht)
  | succ n ih =>
    obtain ⟨t, ht, hmid, hleft, hfin⟩ := tick_before_last h (hn ▸ Nat.succ_pos n)
    rw [ticks_succ, ht, andThen_next, ih hmid (by omega), hfin]

/-! ### A whole instruction -/

/-- No populated slot takes fewer than two cycles (70_reset_and_hazards.md R310). -/
theorem two_le_nominalCycles_of_not_mem {op : Byte} : op ∉ absentSlots → 2 ≤ nominalCycles op := by
  revert op
  decide

theorem two_le_nominalCycles {st : State} (h : st.fetched.isAbsent = false) :
    2 ≤ nominalCycles (st.mem.read st.pc) :=
  two_le_nominalCycles_of_not_mem fun hmem =>
    Bool.eq_false_iff.mp h ((isAbsent_decodeOp_iff _ (latch st).op1 (latch st).op2).mpr hmem)

theorem midInstruction_beginInstr {st : State} (hf : st.fault = none) : (beginInstr st).MidInstruction := by
  refine ⟨hf, ?_⟩
  by_cases hw : nominalCycles st.ir - 2 = 0
  · exact .inr ⟨if_pos hw, hw⟩
  · exact .inl ⟨if_neg hw, Nat.one_le_iff_ne_zero.mpr hw⟩

theorem stallsNeeded_beginInstr (i : Instr) (st : State) : stallsNeeded i (beginInstr st) = stallsNeeded i st :=
  stallsNeeded_congr _ rfl rfl rfl rfl rfl rfl

/-- From a fetch: the fetch tick, then the ticks left of the instruction it has begun. -/
theorem ticks_eq_stepInstr {st : State} (h : st.AtFetch) (hp : st.fetched.isAbsent = false) :
    ticks (nominalCycles (st.mem.read st.pc) + stallsNeeded st.fetched (latch st)) st = stepInstr st := by
  have hleft : ticksBeforeLast (beginInstr (latch st)) =
      nominalCycles (st.mem.read st.pc) - 2 + stallsNeeded st.fetched (latch st) := by
    rw [ticksBeforeLast, stallsNeeded_beginInstr]
    rfl
  have hcount : nominalCycles (st.mem.read st.pc) + stallsNeeded st.fetched (latch st) =
      ticksBeforeLast (beginInstr (latch st)) + 1 + 1 := by
    have := two_le_nominalCycles hp
    omega
  have hmid : (beginInstr (latch st)).MidInstruction := midInstruction_beginInstr h.2
  rw [hcount, ticks_succ, tick_of_fetch h, fetchTick_of_populated hp, andThen_next, ticks_eq_finishInstr hmid rfl,
    stepInstr_of_populated hp]
  rfl

/-! ### A service -/

theorem serviceIdle_serviceIdle (n : Nat) (st : State) : serviceIdle n (serviceIdle 1 st) = serviceIdle (n + 1) st := by
  simp only [serviceIdle, Nat.sub_sub, Nat.add_assoc, Nat.add_comm 1]

theorem ticks_service_idle {n : Nat} {st : State} (hs : st.seq = .serviceInterrupt) (hf : st.fault = none)
    (hn : n + 1 < st.wait) : ticks (n + 1) st = .next (serviceIdle (n + 1) st) := by
  have htick : tick false st = .next (serviceIdle 1 st) := by
    rw [tick_of_service hs hf, serviceTick_of_idle (Nat.le_trans (Nat.le_add_left 2 n) hn)]
  cases n with
  | zero => exact ticks_one htick
  | succ n =>
    have hrest : ticks (n + 1) (serviceIdle 1 st) = .next (serviceIdle (n + 1) (serviceIdle 1 st)) :=
      ticks_service_idle hs hf (Nat.lt_sub_of_add_lt hn)
    rw [ticks_succ, htick, andThen_next, hrest, serviceIdle_serviceIdle]

/-- After its idle ticks the same step is left of a service. -/
theorem stepService_serviceIdle {n : Nat} {st : State} (hn : n ≤ st.wait) :
    stepService (serviceIdle n st) = stepService st := by
  have hcycles : st.cycles + n + (st.wait - n) = st.cycles + st.wait := by omega
  rw [stepService_record st, ← hcycles]
  exact enterService_of_counters st 0 _ false none

/-- The ticks left of a service give what one step makes of it. -/
theorem ticks_eq_stepService {n : Nat} {st : State} (hs : st.seq = .serviceInterrupt) (hf : st.fault = none)
    (hn : st.wait = n + 1) : ticks (n + 1) st = .next (stepService st) := by
  induction n generalizing st with
  | zero =>
    apply ticks_one
    rw [tick_of_service hs hf, serviceTick_of_last_record hn.le, stepService_record, hn]
  | succ n ih =>
    have hleft : (serviceIdle 1 st).wait = n + 1 := Nat.sub_eq_of_eq_add hn
    rw [ticks_succ, tick_of_service hs hf, serviceTick_of_idle (hn ▸ Nat.le_add_left 2 n), andThen_next,
      ih (st := serviceIdle 1 st) hs hf hleft, stepService_serviceIdle (hn ▸ Nat.le_add_left 1 (n + 1))]

end Sys2Proof.Machine
end

section
/-! SUPPORT. The host's actions (40_sequencer.md R92, R95): which of them can be refused, what none of them changes, and
how a request goes past a tick. -/

namespace Sys2Proof.Machine

/-! ### Refusals and parameters -/

theorem hostAct_poke_allowed {st : State} (h : pokeAllowed st = true) (w : Poke) :
    hostAct (.poke w) st = .next (applyPoke w st) :=
  if_pos h

theorem hostAct_poke_refused {st : State} (h : pokeAllowed st = false) (w : Poke) :
    hostAct (.poke w) st = .refused .hostWriteMidInstruction :=
  if_neg (Bool.eq_false_iff.mp h)

theorem pokeAllowed_iff {st : State} : pokeAllowed st = true ↔ st.seq = .fetchOpcode ∨ st.fault ≠ none := by
  simp [pokeAllowed, Option.isSome_iff_ne_none]

theorem pokeAllowed_eq_false_iff {st : State} :
    pokeAllowed st = false ↔ st.seq ≠ .fetchOpcode ∧ st.fault = none := by
  rw [← Bool.not_eq_true, pokeAllowed_iff, not_or, not_not]

/-- An action that takes effect keeps the parameters, and keeps the host's leave to write. -/
theorem hostAct_keeps {act : HostAction} {st t : State} (h : hostAct act st = .next t) :
    t.params = st.params ∧ (pokeAllowed st = true → pokeAllowed t = true) := by
  cases act with
  | reset r =>
    obtain rfl := Host.Outcome.next.inj h
    exact ⟨rfl, fun _ => rfl⟩
  | nmiReq | irqReq =>
    obtain rfl := Host.Outcome.next.inj h
    exact ⟨rfl, id⟩
  | poke w =>
    by_cases hok : pokeAllowed st = true
    case pos =>
      obtain rfl := Host.Outcome.next.inj ((hostAct_poke_allowed hok w).symm.trans h)
      cases w <;> exact ⟨rfl, id⟩
    case neg => cases (hostAct_poke_refused (Bool.eq_false_iff.mpr hok) w).symm.trans h

/-- All that an action of the host can answer: a next state, or the refusal of a write at another time. -/
theorem hostAct_cases (act : HostAction) (st : State) :
    (∃ t, hostAct act st = .next t) ∨
    (hostAct act st = .refused .hostWriteMidInstruction ∧ pokeAllowed st = false ∧ ∃ w, act = .poke w) := by
  cases act with
  | reset r | nmiReq | irqReq => exact .inl ⟨_, rfl⟩
  | poke w =>
    rcases h : pokeAllowed st
    · exact .inr ⟨hostAct_poke_refused h w, rfl, w, rfl⟩
    · exact .inl ⟨_, hostAct_poke_allowed h w⟩

/-- And a list of them. -/
theorem hostActs_cases (acts : List HostAction) (st : State) :
    (∃ t, hostActs acts st = .next t ∧ t.params = st.params) ∨
    (hostActs acts st = .refused .hostWriteMidInstruction ∧ pokeAllowed st = false ∧ ∃ w, .poke w ∈ acts) := by
  induction acts generalizing st with
  | nil => exact .inl ⟨st, rfl, rfl⟩
  | cons act acts ih =>
    rw [hostActs]
    rcases hostAct_cases act st with ⟨u, hu⟩ | ⟨hr, hno, w, rfl⟩
    · obtain ⟨hparams, hkeep⟩ := hostAct_keeps hu
      rw [hu, andThen_next]
      rcases ih u with ⟨t, ht, htp⟩ | ⟨hr, hno, w, hw⟩
      · exact .inl ⟨t, ht, htp.trans hparams⟩
      · exact .inr ⟨hr, Bool.eq_false_iff.mpr fun hok => Bool.eq_false_iff.mp hno (hkeep hok), w,
          List.mem_cons_of_mem act hw⟩
    · rw [hr, andThen_refused]
      exact .inr ⟨rfl, hno, w, List.mem_cons_self⟩

theorem conclude_params (st : State) : (conclude st).params = st.params := by
  rcases hf : st.fault with _ | f
  · rw [conclude_of_no_fault hf, boundaryCheck_params]
  · rw [conclude_of_fault hf, idle_params]

theorem complete_params (i : Instr) (st : State) : ∃ t, complete i st = .next t ∧ t.params = st.params := by
  obtain ⟨u, hu, w⟩ := exec_writesOnly i st
  obtain ⟨-, -, -, -, -, -, -, -, -, -, -, -, hparams, -⟩ := w.unit
  exact ⟨conclude u, by rw [complete, hu, andThen_next], (conclude_params u).trans hparams⟩

/-- A step alone, at either level of `halt`, answers a next state and keeps the parameters. -/
theorem stepAt_params (halt : Bool) (st : State) : ∃ t, stepAt halt st = .next t ∧ t.params = st.params := by
  cases halt with
  | true => exact ⟨idle none st, rfl, rfl⟩
  | false =>
    rcases hf : st.fault with _ | f
    case some => exact ⟨_, stepAt_of_fault hf, rfl⟩
    case none =>
      rcases Seq.cases st.seq with hs | hs | hs | hs
      · rw [stepAt_of_fetch ⟨hs, hf⟩]
        by_cases ha : st.fetched.isAbsent = true
        case pos => exact stepInstr_of_absent ha ▸ complete_params _ (latch st)
        case neg =>
          exact stepInstr_of_populated (Bool.eq_false_iff.mpr ha) ▸ complete_params _ (readyToExecute _)
      · exact stepAt_of_instr (.inl hs) hf ▸ complete_params _ (readyToExecute st)
      · exact stepAt_of_instr (.inr hs) hf ▸ complete_params _ (readyToExecute st)
      · exact ⟨_, stepAt_of_service hs hf, by rw [stepService_record, interruptEntry_record]⟩

/-- All that a step of the whole machine can answer. -/
theorem step_cases (st : State) :
    (∃ t, step st = .next t ∧ t.params = st.params) ∨
    (step st = .refused .hostWriteMidInstruction ∧ pokeAllowed st = false ∧
      ∃ iv rest, st.inputs = iv :: rest ∧ ∃ w, .poke w ∈ iv.actions) := by
  rcases hin : st.inputs with _ | ⟨iv, rest⟩
  · rw [step, withInputs_of_nil _ hin]
    exact .inl (stepAt_params false st)
  · rw [step, withInputs_of_cons _ hin]
    rcases hostActs_cases iv.actions { st with inputs := rest } with ⟨u, hu, hup⟩ | ⟨hr, hno, hw⟩
    · obtain ⟨t, ht, htp⟩ := stepAt_params iv.halt u
      exact .inl ⟨t, by rw [hu, andThen_next, ht], htp.trans hup⟩
    · exact .inr ⟨by rw [hr, andThen_refused], hno, iv, rest, rfl, hw⟩

/-! ### A request and a tick -/

theorem stallsNeeded_request (k : Interrupt) (i : Instr) (st : State) :
    stallsNeeded i (request k st) = stallsNeeded i st := by
  cases k <;> exact stallsNeeded_congr _ rfl rfl rfl rfl rfl rfl

theorem effectiveAddress_request (k : Interrupt) (i : Instr) (st : State) :
    effectiveAddress i (request k st) = effectiveAddress i st := by
  cases k <;> exact effectiveAddress_congr _ rfl rfl rfl rfl rfl

@[simp] theorem request_seq (k : Interrupt) (st : State) : (request k st).seq = st.seq := by cases k <;> rfl
@[simp] theorem request_wait (k : Interrupt) (st : State) : (request k st).wait = st.wait := by cases k <;> rfl
@[simp] theorem request_ctx (k : Interrupt) (st : State) : (request k st).ctx = st.ctx := by cases k <;> rfl
@[simp] theorem request_fault (k : Interrupt) (st : State) : (request k st).fault = st.fault := by cases k <;> rfl
@[simp] theorem latched_request (k : Interrupt) (st : State) : latched (request k st) = latched st := by
  cases k <;> rfl
@[simp] theorem fetched_request (k : Interrupt) (st : State) : (request k st).fetched = st.fetched := by
  cases k <;> rfl

theorem stallTick_request (k : Interrupt) (st : State) : stallTick (request k st) = request k (stallTick st) := by
  have hctx : stallCtx (latched (request k st)) (request k st) = stallCtx (latched st) st := by
    simp only [stallCtx, latched_request, request_ctx, effectiveAddress_request]
  simp only [stallTick, hctx]
  cases k <;> rfl

/-- A request before a tick that does not complete is one after it. -/
theorem tick_request {st t : State} (k : Interrupt) (h : tick false st = .next t) (ht : t.completed = false) :
    tick false (request k st) = .next (request k t) := by
  rcases tick_not_completed_cases h ht with ⟨f, hf, rfl⟩ | ⟨hf, hcase⟩
  · rw [tick_of_fault ((request_fault k st).trans hf)]
    cases k <;> rfl
  have hf' : (request k st).fault = none := (request_fault k st).trans hf
  rcases hcase with ⟨hs, ha, rfl⟩ | ⟨hs, ha, rfl⟩ | ⟨hs, rfl⟩ | ⟨hs, hlt, rfl⟩ | ⟨hs, hle, slot, hi, rfl⟩ |
    ⟨hs, hw, rfl⟩
  · have ha' : (request k st).fetched.isAbsent = true := by rwa [fetched_request]
    rw [tick_of_fetch ⟨(request_seq k st).trans hs, hf'⟩, fetchTick_of_absent ha', complete_fetched_of_absent ha']
    cases k <;> rfl
  · rw [tick_of_fetch ⟨(request_seq k st).trans hs, hf'⟩, fetchTick_of_populated (by rwa [fetched_request])]
    cases k <;> rfl
  · rw [tick_of_wait ((request_seq k st).trans hs) hf']
    cases k <;> rfl
  · rw [tick_of_execute ((request_seq k st).trans hs) hf', executeTick_of_stall
      (by rwa [latched_request, stallsNeeded_request, request_ctx]), stallTick_request]
  · rw [tick_of_execute ((request_seq k st).trans hs) hf', executeTick_of_stalled
      (by rwa [latched_request, stallsNeeded_request, request_ctx]), latched_request, hi]
    cases k <;> rfl
  · rw [tick_of_service ((request_seq k st).trans hs) hf', serviceTick_of_idle (by rwa [request_wait])]
    cases k <;> rfl

end Sys2Proof.Machine
end

section
/-! SUPPORT. One whole instruction and its cycles (40_sequencer.md R84, R91; 70_reset_and_hazards.md R310 to R314): what
a fetch latches, and the stalls of a page crossing or a branch. -/

namespace Sys2Proof.Machine

/-! ### One whole instruction -/

theorem fetched_length (st : State) : st.fetched.length = 1 + operandCount (st.mem.read st.pc) :=
  congrArg (1 + ·) (operandBytes_length_decodeOp _ _ _)

/-- All that a fetch latches, by the length of the instruction (40_sequencer.md R84). -/
theorem latch_record (st : State) :
    latch st = { st with
      ir := st.mem.read st.pc
      op1 := if 2 ≤ st.fetched.length then st.mem.read (st.pc + 1) else st.op1
      op2 := if 3 ≤ st.fetched.length then st.mem.read (st.pc + 2) else st.op2
      pc := st.pc + BitVec.ofNat 16 st.fetched.length } := by
  have hone : 2 ≤ st.fetched.length ↔ 1 ≤ operandCount (st.mem.read st.pc) := by rw [fetched_length]; omega
  have htwo : 3 ≤ st.fetched.length ↔ 2 ≤ operandCount (st.mem.read st.pc) := by rw [fetched_length]; omega
  simp only [hone, htwo, ← latch_pc]
  rfl

/-- The state in which a populated instruction fetched at PC performs its operation. -/
def readyFromFetch (st : State) : State := readyToExecute (beginInstr (latch st))

theorem stallsNeeded_readyFromFetch (i : Instr) (st : State) :
    stallsNeeded i (readyFromFetch st) = stallsNeeded i (latch st) :=
  stallsNeeded_congr _ rfl rfl rfl rfl rfl rfl

/-- An instruction's cycles: the fetch, WaitCycles, the stalls, the completing tick (40_sequencer.md R91). -/
theorem readyFromFetch_cycles {st : State} (hp : st.fetched.isAbsent = false) :
    (readyFromFetch st).cycles =
      st.cycles + nominalCycles (st.mem.read st.pc) + stallsNeeded st.fetched (latch st) := by
  have hsum : (readyFromFetch st).cycles = st.cycles + 1 + (nominalCycles (st.mem.read st.pc) - 2) +
      stallsNeeded st.fetched (beginInstr (latch st)) + 1 := rfl
  have htwo := two_le_nominalCycles hp
  rw [hsum, stallsNeeded_beginInstr]
  omega

theorem readyFromFetch_pc (st : State) : (readyFromFetch st).pc = st.pc + BitVec.ofNat 16 st.fetched.length :=
  latch_pc st

/-- With nothing from the host, the step of a populated instruction is its operation and its end. -/
theorem step_of_populated {st : State} (h : st.AtFetch) (hin : st.inputs = []) (hp : st.fetched.isAbsent = false) :
    step st = complete st.fetched (readyFromFetch st) := by
  rw [step_of_atFetch h hin, stepInstr_of_populated hp, readyFromFetch]

/-! ### Page crossings and branches -/

theorem branchOf_of_accessMode {i : Instr} {m : MemMode} (h : accessMode i = some m) : branchOf i = none := by
  cases i with
  | bcc op1 | bcs op1 | beq op1 | bne op1 | bmi op1 | bpl op1 | bvc op1 | bvs op1 => cases h
  | _ => rfl

theorem stallsNeeded_of_accessMode {i : Instr} {m : MemMode} (h : accessMode i = some m) (st : State) :
    stallsNeeded i st = if pageCrossed m st then 1 else 0 := by
  simp only [stallsNeeded, h]

theorem stallsNeeded_of_branchOf {i : Instr} {b : Branch} (ha : accessMode i = none) (h : branchOf i = some b)
    (st : State) : stallsNeeded i st = b.stalls st := by
  simp only [stallsNeeded, ha, h]

theorem stallsNeeded_of_neither {i : Instr} (ha : accessMode i = none) (h : branchOf i = none) (st : State) :
    stallsNeeded i st = 0 := by
  simp only [stallsNeeded, ha, h]

theorem length_of_branchOf {i : Instr} {b : Branch} (h : branchOf i = some b) : i.length = 2 := by
  cases i with
  | bcc op1 | bcs op1 | beq op1 | bne op1 | bmi op1 | bpl op1 | bvc op1 | bvs op1 => rfl
  | _ => cases h

/-- Two addresses lie in one page when their high bytes agree (00_scope.md R9). -/
theorem hi_eq_iff (a b : Word) : hi a = hi b ↔ a.toNat / 256 = b.toNat / 256 := by
  rw [← hi_toNat, ← hi_toNat, BitVec.toNat_inj]

theorem Branch.stalls_of_taken {b : Branch} {st : State} (h : st.p.get b.flag = b.want) :
    b.stalls st = if (branchTarget b.op1 st).toNat / 256 = st.pc.toNat / 256 then 1 else 2 := by
  have htaken : b.taken st = true := beq_iff_eq.mpr h
  simp only [Branch.stalls, htaken, if_true, hi_eq_iff]

theorem Branch.stalls_of_not_taken {b : Branch} {st : State} (h : st.p.get b.flag ≠ b.want) : b.stalls st = 0 := by
  have htaken : ¬ b.taken st = true := fun e => h (beq_iff_eq.mp e)
  exact if_neg htaken

theorem Branch.stalls_le_two (b : Branch) (st : State) : b.stalls st ≤ 2 := by
  unfold Branch.stalls
  split
  case isTrue => split <;> decide
  case isFalse => decide

/-- A branch has extra cycles exactly when it is taken. -/
theorem Branch.stalls_ne_zero_iff (b : Branch) (st : State) : b.stalls st ≠ 0 ↔ st.p.get b.flag = b.want := by
  by_cases h : st.p.get b.flag = b.want
  case pos =>
    rw [Branch.stalls_of_taken h]
    split <;> simp [h]
  case neg => simp [Branch.stalls_of_not_taken h, h]

/-- The page compared is the one of the byte after the branch, two past its own address. -/
theorem Branch.stalls_latch_of_taken {b : Branch} {st : State} (hb : branchOf st.fetched = some b)
    (h : st.p.get b.flag = b.want) : b.stalls (latch st) =
      if (branchTarget b.op1 { st with pc := st.pc + 2 }).toNat / 256 = (st.pc + 2).toNat / 256 then 1 else 2 := by
  have hpc : (latch st).pc = st.pc + 2 := by
    rw [latch_pc, length_of_branchOf hb]
    rfl
  rw [Branch.stalls_of_taken (by exact h), ← hpc]
  rfl

end Sys2Proof.Machine
end

section
/-! SUPPORT. Runs (40_sequencer.md R90, R91, R96): each tick's progress, which ticks complete, and the Faulted condition
along a run. -/

namespace Sys2Proof.Machine

/-! ### Progress -/

/-- A tick from a legal, unfaulted state counts a cycle and leaves no fault, unless it fetches an absent slot
(40_sequencer.md R91). -/
theorem tick_progress {st : State} (hl : st.LegalSequencer) (hf : st.fault = none)
    (hno : ¬ (st.seq = .fetchOpcode ∧ st.fetched.isAbsent = true)) :
    ∃ t, tick false st = .next t ∧ t.fault = none ∧ t.cycles = st.cycles + 1 := by
  rcases Seq.cases st.seq with hs | hs | hs | hs
  · have hp : st.fetched.isAbsent = false := Bool.eq_false_iff.mpr fun ha => hno ⟨hs, ha⟩
    exact ⟨_, (tick_of_fetch ⟨hs, hf⟩).trans (fetchTick_of_populated hp), hf, rfl⟩
  · exact ⟨_, tick_of_wait hs hf, hf, rfl⟩
  · rw [tick_of_execute hs hf]
    by_cases hlt : st.ctx.stall < stallsNeeded (latched st) st
    case pos => exact ⟨_, executeTick_of_stall hlt, hf, rfl⟩
    case neg =>
      rw [executeTick_of_stalled (Nat.le_of_not_lt hlt)]
      obtain ⟨t, ht, -, hnone, hcycles⟩ :=
        complete_of_populated_frame (st := { st with cycles := st.cycles + 1 }) (hl.populated (.inr hs)) hf
      exact ⟨t, ht, hnone, hcycles⟩
  · obtain ⟨-, hw, -, -⟩ := (State.legalSequencer_iff_of_service hs).mp hl
    rw [tick_of_service hs hf]
    rcases Nat.eq_or_lt_of_le hw with hw | hw
    · exact ⟨_, rfl, by rw [serviceTick_of_last_record hw.ge, interruptEntry_record]; exact ⟨hf, rfl⟩⟩
    · exact ⟨_, rfl, by rw [serviceTick_of_idle hw]; exact ⟨hf, rfl⟩⟩

/-- No end of a run is Faulted (40_sequencer.md R96). -/
theorem State.FinishedAt.not_faulted {final : Word} {st : State} (h : st.FinishedAt final) : ¬ st.Faulted := by
  obtain ⟨⟨-, hnone⟩, -⟩ := h
  exact fun hf => hf hnone

/-- A step of a faulted machine whose host has no reset to come leaves it such a machine. -/
theorem step_faulted {st t : State} (h : st.Faulted ∧ st.NoResetToCome) (ht : step st = .next t) :
    t.Faulted ∧ t.NoResetToCome := by
  obtain ⟨hf, hr⟩ := h
  rcases hin : st.inputs with _ | ⟨iv, rest⟩
  · rw [step, withInputs_of_nil _ hin] at ht
    obtain ⟨hfault, hinputs⟩ := stepAt_faulted hf ht
    exact ⟨fun e => hf (hfault.symm.trans e), fun iv hiv => hr iv (hinputs ▸ hiv)⟩
  · rw [step, withInputs_of_cons _ hin] at ht
    obtain ⟨u, hu, ht⟩ := andThen_eq_next ht
    obtain ⟨hufault, huinputs⟩ := hostActs_keeps_fault (hr iv (hin ▸ List.mem_cons_self)) hu
    obtain ⟨hfault, hinputs⟩ := stepAt_faulted (fun e => hf (hufault.symm.trans e)) ht
    refine ⟨fun e => hf (hufault.symm.trans (hfault.symm.trans e)), fun iv' hiv' => hr iv' ?_⟩
    rw [hinputs, huinputs] at hiv'
    exact hin ▸ List.mem_cons_of_mem iv hiv'

/-! ### Which ticks complete -/

/-- Of the legal states' ticks, the completing ones are the last of an instruction and the last of a service
(40_sequencer.md R90). -/
theorem tick_completed_iff {st t : State} (hl : st.LegalSequencer) (hf : st.fault = none)
    (h : tick false st = .next t) : t.completed = true ↔
      (st.seq = .executeFinal ∧ st.ctx.stall = stallsNeeded (latched st) st) ∨
      (st.seq = .serviceInterrupt ∧ st.wait = 1) := by
  rcases tick_cases h with ⟨f, hsome, -⟩ | ⟨-, ⟨hs, ha, hc⟩ | ⟨hs, -, rfl⟩ | ⟨hs, rfl⟩ | ⟨hs, hlt, rfl⟩ |
    ⟨hs, hge, hc⟩ | ⟨hs, rfl⟩⟩
  · simp [hf] at hsome
  · obtain rfl := Host.Outcome.next.inj (hc.symm.trans (complete_fetched_of_absent ha))
    simp [hs, faultedFetch, faulted]
  · simp [hs, beginInstr]
  · simp [hs, waitTick]
  · simp [hs, hlt.ne]
  · obtain ⟨-, -, -, hle, -⟩ := (State.legalSequencer_iff_of_execute hs).mp hl
    obtain ⟨u, hu, hdone, -⟩ :=
      complete_of_populated_frame (st := { st with cycles := st.cycles + 1 }) (hl.populated (.inr hs)) hf
    obtain rfl : u = t := Host.Outcome.next.inj (hu.symm.trans hc)
    simp [hs, hdone, Nat.le_antisymm hle (Nat.le_of_not_lt hge)]
  · obtain ⟨-, hw, -, -⟩ := (State.legalSequencer_iff_of_service hs).mp hl
    rcases Nat.eq_or_lt_of_le hw with hw | hw
    · simp [hs, ← hw, serviceTick_of_last_record hw.ge]
    · simp [hs, hw.ne', serviceTick_of_idle hw, serviceIdle]

end Sys2Proof.Machine
end

section
/-! SUPPORT. The decoder on the bytes at PC and the fetch read one instruction (30_encoding.md R60; 40_sequencer.md
R84). -/

namespace Sys2Proof.Machine

/-- The operand bytes that the opcode byte does not call for do not matter. -/
theorem decodeOp_eq_decodeWith (op l h : Byte) : decodeOp op l h = decodeWith op ([l, h].take (operandCount op)) := by
  rw [← operandBytes_decodeOp, decodeWith_of_opcode (opcode_decodeOp op l h)]

/-- A fetch latches the operand bytes that the opcode byte calls for. -/
theorem latch_operands (st : State) :
    [(latch st).op1, (latch st).op2].take (operandCount (st.mem.read st.pc)) =
      [st.mem.read (st.pc + 1), st.mem.read (st.pc + 2)].take (operandCount (st.mem.read st.pc)) := by
  have hle := operandCount_le_two (st.mem.read st.pc)
  simp only [latch]
  interval_cases operandCount (st.mem.read st.pc) <;> rfl

/-- The decoder on the bytes at PC reads the instruction that a fetch latches. -/
theorem decode_fetchBytes (st : State) : ∃ rest, decode (fetchBytes st) = .ok (st.fetched, rest) := by
  have hle := operandCount_le_two (st.mem.read st.pc)
  have hlen : ([st.mem.read (st.pc + 1), st.mem.read (st.pc + 2)].take (operandCount (st.mem.read st.pc))).length =
      operandCount (st.mem.read st.pc) := List.length_take_of_le hle
  have hfetched : st.fetched = decodeOp (st.mem.read st.pc) (latch st).op1 (latch st).op2 := rfl
  have hdec := decode_of_length hlen
    ([st.mem.read (st.pc + 1), st.mem.read (st.pc + 2)].drop (operandCount (st.mem.read st.pc)))
  rw [List.cons_append, List.take_append_drop] at hdec
  exact ⟨_, by rw [hfetched, decodeOp_eq_decodeWith, latch_operands]; exact hdec⟩

theorem fetched_of_decode {st : State} {i : Instr} {rest : List Byte} (h : decode (fetchBytes st) = .ok (i, rest)) :
    st.fetched = i := by
  obtain ⟨rest', h'⟩ := decode_fetchBytes st
  rw [h'] at h
  cases h
  rfl

end Sys2Proof.Machine
end

section
/-! SUPPORT. The statements of 40_sequencer.md, settled. -/

open Sys2Proof Sys2Proof.Machine

/-- Settles O41: the instruction completes and comes to the boundary check, which keeps the flags it has left. -/
theorem boundaryAfterEveryInstruction : Obligations.BoundaryAfterEveryInstruction := by
  intro st hfetch hin hp
  obtain ⟨u, hc, hdone, herror, -, hnmi, hirq, -⟩ := complete_of_populated (st := readyFromFetch st) hp hfetch.2
  refine ⟨boundaryCheck u, (step_of_populated hfetch hin hp).trans hc, (boundaryCheck_completed u).trans hdone,
    (boundaryCheck_error u).trans herror, (boundaryCheck_nmiPending u).trans hnmi,
    (boundaryCheck_irqPending u).trans hirq, fun hn => ?_, fun hn hq hi => ?_, fun hn hmasked => ?_⟩
  · rw [boundaryCheck_of_nmi (hnmi.trans hn)]
    exact ⟨rfl, rfl, rfl⟩
  · rw [boundaryCheck_p] at hi
    rw [boundaryCheck_of_irq (hnmi.trans hn) (hirq.trans hq) hi]
    exact ⟨rfl, rfl, rfl⟩
  · rw [boundaryCheck_p] at hmasked
    rw [boundaryCheck_of_none (hnmi.trans hn) (hmasked.imp_left hirq.trans)]

/-- Settles O42: the whole service is one step; six of its ticks idle, and the seven compose to the step. -/
theorem serviceStepEntersTheHandler : Obligations.ServiceStepEntersTheHandler := by
  intro st hs hf hin hw
  refine ⟨stepService st, ?_, ?_, ?_, ticks_eq_stepService hs hf hw⟩
  · rw [step, withInputs_of_nil _ hin, stepAt_of_service hs hf]
  · rw [stepService_record, hw]
  · rw [ticks_service_idle hs hf (by omega), serviceIdle, hw]

/-- Settles O43: an absent slot's whole meaning is the record of the fault; every other operation keeps it. -/
theorem onlyAnAbsentFetchFaults : Obligations.OnlyAnAbsentFetchFaults := by
  refine ⟨fun st h ha => ⟨faultedFetch st, ?_, ?_, rfl⟩, fun st f hf => ⟨?_, ?_⟩, fun slot st => rfl,
    fun i st hi => ?_⟩
  · rw [tick_of_fetch h, fetchTick_of_absent ha, complete_fetched_of_absent ha]
  · rw [stepAt_of_fetch h, stepInstr_of_absent ha, complete_fetched_of_absent ha]
  · rw [tick_of_fault hf, idle]
  · rw [stepAt_of_fault hf, idle]
  · obtain ⟨t, ht, -, hfault⟩ := exec_of_populated hi st
    exact ⟨t, ht, hfault⟩

/-- Settles O45: no tick that does not complete looks at the pending bits, and a service clears its own. -/
theorem requestsAreLatchedAtAnyTick : Obligations.RequestsAreLatchedAtAnyTick := by
  refine ⟨fun st => ⟨rfl, rfl, rfl, rfl⟩, fun halt k st t h ht => ?_, fun st hs hf => ?_, fun k st => ?_⟩
  · cases halt with
    | true =>
      obtain rfl := Host.Outcome.next.inj h
      cases k <;> rfl
    | false => exact tick_request k h ht
  · rw [stepAt_of_service ((request_seq _ st).trans hs) ((request_fault _ st).trans hf), stepAt_of_service hs hf,
      stepService_record, stepService_record, interruptEntry_record, interruptEntry_record]
    cases hk : st.svc <;> simp [request, hk]
  · cases k <;> rfl

/-- Settles O48: of all that a step does, only a host write can be refused, and not at a boundary or while faulted. -/
theorem onlyALateHostWriteStopsAStep : Obligations.OnlyALateHostWriteStopsAStep := by
  intro st
  rcases step_cases st with ⟨t, ht, hparams⟩ | ⟨hr, hno, iv, rest, hin, w, hw⟩
  · refine ⟨fun u hu => ?_, fun r hr => ?_, fun _ => ⟨t, ht⟩⟩
    · obtain rfl := Host.Outcome.next.inj (ht.symm.trans hu)
      exact hparams
    · cases ht.symm.trans hr
  · obtain ⟨hs, hf⟩ := pokeAllowed_eq_false_iff.mp hno
    refine ⟨fun u hu => ?_, fun r hr' => ?_, fun hnone => absurd hw (hnone iv rest hin w)⟩
    · cases hr.symm.trans hu
    · exact ⟨(Host.Outcome.refused.inj (hr.symm.trans hr')).symm, hs, hf, iv, rest, hin, w, hw⟩

/-- Settles O50: the stalls are the page crossing of an access, or the branch's, or none. -/
theorem cyclesPerInstruction : Obligations.CyclesPerInstruction := by
  intro st hfetch hin hp
  obtain ⟨t, ht, -, -, hcycles⟩ := complete_of_populated_frame (st := readyFromFetch st) hp hfetch.2
  rw [readyFromFetch_cycles hp] at hcycles
  have hstep := (step_of_populated hfetch hin hp).trans ht
  have htwo := two_le_nominalCycles hp
  have height := nominalCycles_le (st.mem.read st.pc)
  rcases hm : accessMode st.fetched with _ | m
  case some =>
    have hcross : pageCrossed m (latch st) = pageCrossed m st := pageCrossed_congr m rfl rfl rfl rfl
    rw [stallsNeeded_of_accessMode hm, hcross] at hcycles
    have hpage : (if pageCrossed m st then 1 else 0) ≤ 1 := by split <;> decide
    have hb := branchOf_of_accessMode hm
    exact ⟨t, _, 0, hstep, hcycles, htwo, height, hpage, Nat.zero_le 2, by simp, by simp [hb], by simp [hb]⟩
  case none =>
    rcases hb : branchOf st.fetched with _ | b
    case none =>
      rw [stallsNeeded_of_neither hm hb] at hcycles
      exact ⟨t, 0, 0, hstep, hcycles, htwo, height, by simp⟩
    case some =>
      rw [stallsNeeded_of_branchOf hm hb] at hcycles
      refine ⟨t, 0, _, hstep, hcycles, htwo, height, Nat.zero_le 1, b.stalls_le_two _, by simp, ?_, ?_⟩
      · rw [Branch.stalls_ne_zero_iff]
        exact ⟨fun htaken => ⟨b, rfl, htaken⟩, fun ⟨_, hsome, htaken⟩ => Option.some.inj hsome ▸ htaken⟩
      · rintro b' hsome htaken
        exact Option.some.inj hsome ▸ Branch.stalls_latch_of_taken hb (Option.some.inj hsome ▸ htaken)

/-- Settles O53: of the ticks that do not complete only the fetch moves PC, and none touches the rest. -/
theorem onlyCompletingTicksHaveEffects : Obligations.OnlyCompletingTicksHaveEffects := by
  intro st t h ht
  rcases tick_not_completed_cases h ht with ⟨f, hf, rfl⟩ | ⟨hf, ⟨hs, ha, rfl⟩ | ⟨hs, ha, rfl⟩ | ⟨hs, rfl⟩ |
    ⟨hs, -, rfl⟩ | ⟨hs, -, slot, -, rfl⟩ | ⟨hs, -, rfl⟩⟩
  · refine ⟨rfl, rfl, rfl, rfl, rfl, rfl, rfl, rfl, fun hfetch => ?_, fun _ => rfl⟩
    simp [hfetch.2] at hf
  · refine ⟨rfl, rfl, rfl, rfl, rfl, rfl, rfl, rfl, fun _ => ?_, fun hno => absurd ⟨hs, hf⟩ hno⟩
    rw [← latch_pc, latch_of_absent ha]
    rfl
  · exact ⟨rfl, rfl, rfl, rfl, rfl, rfl, rfl, rfl, fun _ => latch_pc st, fun hno => absurd ⟨hs, hf⟩ hno⟩
  all_goals
    refine ⟨rfl, rfl, rfl, rfl, rfl, rfl, rfl, rfl, fun hfetch => ?_, fun _ => rfl⟩
    simp [hfetch.1] at hs

/-- Settles O54: what a stall count and an address depend on, no stalled invocation writes. -/
theorem stallsOnlyLatchTheAddress : Obligations.StallsOnlyLatchTheAddress := by
  intro st hs hf hlt
  exact ⟨stallTick st, (tick_of_execute hs hf).trans (executeTick_of_stall hlt), rfl, rfl, fun h0 => if_pos h0,
    fun h0 => if_neg h0, rfl, stallsNeeded_stallTick st, effectiveAddress_stallTick st⟩

/-- Settles O55: one induction over the ticks left of an instruction, one over those of a service. -/
theorem ticksComposeToTheStep : Obligations.TicksComposeToTheStep := by
  refine fun st hl hf => ⟨fun hs hp => ?_, fun hs ha => ?_, fun hs => ?_, fun hs => ?_, fun hs => ?_⟩
  · rw [ticks_eq_stepInstr ⟨hs, hf⟩ hp, stepAt_of_fetch ⟨hs, hf⟩]
  · rw [stepAt_of_fetch ⟨hs, hf⟩, stepInstr_of_absent ha, complete_fetched_of_absent ha]
    exact ticks_one (by rw [tick_of_fetch ⟨hs, hf⟩, fetchTick_of_absent ha, complete_fetched_of_absent ha])
  · obtain ⟨-, -, hw, -, hctx⟩ := (State.legalSequencer_iff_of_wait hs).mp hl
    rw [stepAt_of_instr (.inl hs) hf]
    exact ticks_eq_finishInstr ⟨hf, .inl ⟨hs, hw⟩⟩ (by simp [ticksBeforeLast, hctx])
  · obtain ⟨-, -, hw, -, -⟩ := (State.legalSequencer_iff_of_execute hs).mp hl
    rw [stepAt_of_instr (.inr hs) hf]
    exact ticks_eq_finishInstr ⟨hf, .inr ⟨hs, hw⟩⟩ (by simp [ticksBeforeLast, hw])
  · obtain ⟨-, hw, -, -⟩ := (State.legalSequencer_iff_of_service hs).mp hl
    obtain ⟨n, hn⟩ := Nat.exists_eq_add_of_le' hw
    rw [stepAt_of_service hs hf, hn, ticks_eq_stepService hs hf hn]

/-- Settles O59: every tick of a legal sequencer makes progress or faults, and the Faulted condition, with no reset to
come, is kept along a run. -/
theorem runsEndWhereTheHostSaysAndNeverFaulted : Obligations.RunsEndWhereTheHostSaysAndNeverFaulted := by
  refine ⟨fun st hl hf => ?_, fun final st hfin => hfin.not_faulted, fun final st hfault hr => ?_⟩
  · by_cases ha : st.seq = .fetchOpcode ∧ st.fetched.isAbsent = true
    case pos =>
      refine ⟨faultedFetch st, ?_, fun _ => ⟨Option.some_ne_none _, rfl⟩, fun hno => absurd ha hno⟩
      rw [tick_of_fetch ⟨ha.1, hf⟩, fetchTick_of_absent ha.2, complete_fetched_of_absent ha.2]
    case neg =>
      obtain ⟨t, ht, hprogress⟩ := tick_progress hl hf ha
      exact ⟨t, ht, fun h => absurd h ha, fun _ => hprogress⟩
  · rintro ⟨t, hreach, hfin⟩
    have hkeep := hreach.keeps (inv := fun u => u.Faulted ∧ u.NoResetToCome) (fun _ _ => step_faulted) ⟨hfault, hr⟩
    exact hfin.not_faulted hkeep.1

/-- Settles O60: the tick's equation in each state of the sequencer. -/
theorem eachTickDoesItsStatesWork : Obligations.EachTickDoesItsStatesWork := by
  refine fun st hf => ⟨fun hs hp => ?_, fun hs hw => ?_, fun hs hdone => ?_, fun hs hw => ?_, fun hs hw => ?_,
    fun hl t h => tick_completed_iff hl hf h⟩
  · rw [tick_of_fetch ⟨hs, hf⟩, fetchTick_of_populated hp, latch_record]
    rfl
  · have hone : st.wait - 1 = 0 ↔ st.wait = 1 := by omega
    simp only [tick_of_wait hs hf, waitTick, hone]
  · rw [tick_of_execute hs hf, executeTick_of_stalled hdone, complete]
  · rw [tick_of_service hs hf, serviceTick_of_idle hw, serviceIdle]
  · rw [tick_of_service hs hf, serviceTick_of_last_record hw.le]

/-- Settles O44: a halted tick or step idles, and its interval's requests come first. -/
theorem haltFreezesAllButTheRequests : Obligations.HaltFreezesAllButTheRequests := by
  refine fun st => ⟨rfl, rfl, fun rest hin => ?_⟩
  rw [step, clock, withInputs_of_cons _ hin, withInputs_of_cons _ hin]
  exact ⟨rfl, rfl⟩

/-- Settles O47: each kind of write, with leave, and the refusal without. -/
theorem hostWritesOnlyAtABoundary : Obligations.HostWritesOnlyAtABoundary := by
  refine fun st => ⟨fun hok => ?_, fun w hs hf => hostAct_poke_refused (pokeAllowed_eq_false_iff.mpr ⟨hs, hf⟩) w⟩
  have hwrite := hostAct_poke_allowed (pokeAllowed_iff.mpr hok)
  exact ⟨fun v => hwrite (.a v), fun v => hwrite (.x v), fun v => hwrite (.y v), fun v => hwrite (.s v),
    fun v => hwrite (.pc v), fun v => hwrite (.p v),
    fun addr v => ⟨_, hwrite (.mem addr v), rfl, fun b => Memory.read_write st.mem addr b v⟩⟩

/-- Settles O49: the decoder and the fetch read the same instruction; the rest is what a step is. -/
theorem stepRunsTheDecodedInstruction : Obligations.StepRunsTheDecodedInstruction := by
  refine ⟨fun st i rest hfetch hin hdec hp => ?_, fun st iv rest hin => ?_, fun st hin => ?_⟩
  · obtain rfl := fetched_of_decode hdec
    refine ⟨readyFromFetch st, ?_, rfl, step_of_populated hfetch hin hp⟩
    rw [stallsNeeded_readyFromFetch, ← readyFromFetch_cycles hp, ← readyFromFetch_pc]
    rfl
  · exact ⟨withInputs_of_cons stepAt hin, withInputs_of_cons tick hin⟩
  · exact ⟨withInputs_of_nil stepAt hin, withInputs_of_nil tick hin⟩

end

section
/-! SUPPORT. Effective addresses, page crossings and branch targets as numbers (41_addressing_modes.md R105 to R110,
R112 to R115). -/

namespace Sys2Proof.Machine

/-! ### Indexing -/

/-- Indexing within page zero: the index wraps modulo 256. -/
theorem zext16_add_toNat (z idx : Byte) : (zext16 (z + idx)).toNat = (z.toNat + idx.toNat) % 256 :=
  (zext16_toNat (z + idx)).trans (BitVec.toNat_add z idx)

/-- Indexing from a 16-bit base: the index is unsigned and the sum wraps at the top of memory. -/
theorem add_zext16_toNat {base : Word} {n : Nat} (hbase : base.toNat = n) (idx : Byte) :
    (base + zext16 idx).toNat = (n + idx.toNat) % 65536 := by
  rw [BitVec.toNat_add, zext16_toNat, hbase]

/-- The word of an instruction's two operand bytes, low byte first. -/
theorem operandWord_toNat (op1 op2 : Byte) : (word op2 op1).toNat = op1.toNat + 256 * op2.toNat := by
  rw [word_toNat, Nat.mul_comm, Nat.add_comm]

/-- In the three modes that can cross a page, the address is the base plus the index. -/
theorem address_of_indexed {m : MemMode} {st : State} {base : Word} {idx : Byte}
    (h : indexed m st = some (base, idx)) : address m st = base + zext16 idx := by
  cases m with
  | absoluteX op1 op2 | absoluteY op1 op2 | indirectIndexed op1 => cases h; rfl
  | zeropage op1 | zeropageX op1 | zeropageY op1 | absolute op1 op2 | indexedIndirect op1 => cases h

/-! ### Page crossings -/

theorem pageCrossed_of_indexed {m : MemMode} {st : State} {base : Word} {idx : Byte} {n : Nat}
    (h : indexed m st = some (base, idx)) (hbase : base.toNat = n) :
    pageCrossed m st = decide (n % 256 + idx.toNat > 0xFF) := by
  simp only [pageCrossed, h, lo_toNat, hbase]

theorem pageCrossed_of_not_indexed {m : MemMode} {st : State} (h : indexed m st = none) : pageCrossed m st = false := by
  simp only [pageCrossed, h]

/-- Indexing from the word of two operand bytes crosses when the index carries out of the first. -/
theorem pageCrossed_of_indexed_word {m : MemMode} {st : State} {op1 op2 idx : Byte}
    (h : indexed m st = some (word op2 op1, idx)) : pageCrossed m st = decide (op1.toNat + idx.toNat > 0xFF) := by
  rw [pageCrossed_of_indexed h rfl, ← lo_toNat, lo_word]

/-- A byte added to a base carries out of its low byte exactly when the sum lies in another page: even past the top of
memory, where the sum is in page 0x00 and the base in 0xFF. -/
theorem lowCarry_iff_page_ne (base : Word) (idx : Byte) :
    base.toNat % 256 + idx.toNat > 0xFF ↔ (base + zext16 idx).toNat / 256 ≠ base.toNat / 256 := by
  have hbase := base.isLt
  have hidx := idx.isLt
  rw [add_zext16_toNat rfl]
  omega

/-! ### Branch targets -/

/-- The displacement is the two's-complement reading of the operand byte. -/
theorem sext16_toInt (b : Byte) :
    (sext16 b).toInt = if b.toNat < 128 then (b.toNat : Int) else (b.toNat : Int) - 256 := by
  rw [sext16, BitVec.toInt_signExtend_of_le (by decide), BitVec.toInt_eq_toNat_cond]
  split <;> split <;> omega

/-- Adding a word is adding its signed reading, modulo 65536. -/
theorem add_toNat_signed (w d : Word) : ((w + d).toNat : Int) = ((w.toNat : Int) + d.toInt) % 65536 := by
  rw [BitVec.toNat_add, BitVec.toInt_eq_toNat_cond]
  split <;> omega

end Sys2Proof.Machine
end

section
/-! SUPPORT. The statements of 41_addressing_modes.md, settled. -/

open Sys2Proof Sys2Proof.Machine

/-- Settles O9: each mode's sum as a number, the two pointers by the word in page zero. -/
theorem effectiveAddressesOfTheMemoryModes : Obligations.EffectiveAddressesOfTheMemoryModes := by
  intro op1 op2 st
  have hbase := operandWord_toNat op1 op2
  have hpointer := read16ZP_toNat op1 st
  have hpointerX := read16ZP_toNat (op1 + st.x) st
  rw [BitVec.toNat_add op1 st.x] at hpointerX
  exact ⟨zext16_toNat op1, zext16_add_toNat op1 st.x, zext16_add_toNat op1 st.y, hbase,
    add_zext16_toNat hbase st.x, add_zext16_toNat hbase st.y, hpointerX, add_zext16_toNat hpointer st.y,
    pageCrossed_of_indexed_word rfl, pageCrossed_of_indexed_word rfl, pageCrossed_of_indexed rfl hpointer,
    pageCrossed_of_not_indexed rfl, pageCrossed_of_not_indexed rfl, pageCrossed_of_not_indexed rfl,
    pageCrossed_of_not_indexed rfl, pageCrossed_of_not_indexed rfl⟩

/-- Settles O10: in these modes the address is base plus index, and only the carry leaves the base's page. -/
theorem pageCrossedIffThePageChanges : Obligations.PageCrossedIffThePageChanges := by
  intro m st base idx h
  rw [pageCrossed_of_indexed h rfl, address_of_indexed h, decide_eq_true_iff]
  exact lowCarry_iff_page_ne base idx

/-- Settles O11: PC is already past the branch, and the displacement is added by its signed reading. -/
theorem branchTargetIsSignedFromTheNextByte : Obligations.BranchTargetIsSignedFromTheNextByte := by
  intro op1 st
  rw [branchTarget, add_toNat_signed, sext16_toInt]

end

section
/-! SUPPORT. An *Operands* line's opcode bytes by mode against the table by mnemonic (30_encoding.md R64): the list of
them is a row of that table, so an instruction has them as soon as it has that row. -/

namespace Sys2Proof.Machine

/-- The row of the table by mnemonic that a list of opcode bytes by mode fills. -/
def opcodeRow (table : List (Mode × Byte)) : OpcodeRow :=
  { accumulator := table.lookup .accumulator
    immediate := table.lookup .immediate
    zeropage := table.lookup .zeropage
    zeropageX := table.lookup .zeropageX
    zeropageY := table.lookup .zeropageY
    absolute := table.lookup .absolute
    absoluteX := table.lookup .absoluteX
    absoluteY := table.lookup .absoluteY
    indexedIndirect := table.lookup .indexedIndirect
    indirectIndexed := table.lookup .indirectIndexed }

theorem opcodeRow_mem (table : List (Mode × Byte)) (m : MemMode) :
    (opcodeRow table).mem m = table.lookup m.mode := by
  cases m <;> rfl

theorem opcodeRow_load (table : List (Mode × Byte)) (m : LoadMode) :
    (opcodeRow table).load m = table.lookup m.mode := by
  cases m with
  | immediate op1 => rfl
  | mem m => exact opcodeRow_mem table m

theorem encodes_of_memRow {f : MemMode → Instr} {table : List (Mode × Byte)}
    (h : ∀ m, (f m).opcode = (opcodeRow table).mem m) : Encodes f MemMode.mode table :=
  fun m => (h m).trans (opcodeRow_mem table m)

theorem encodes_of_loadRow {f : LoadMode → Instr} {table : List (Mode × Byte)}
    (h : ∀ m, (f m).opcode = (opcodeRow table).load m) : Encodes f LoadMode.mode table :=
  fun m => (h m).trans (opcodeRow_load table m)

end Sys2Proof.Machine
end

section
/-! SUPPORT. The operations of 42_load_store_transfer.md: a store's one byte (41_addressing_modes.md R101), and an
operation that ends in `SetNZ` (10_state.md R20). -/

namespace Sys2Proof.Machine

/-- An operation that ends in `SetNZ(v)` has written N and Z last, from the byte. -/
theorem next_setNZ (v : Byte) (st : State) : (Host.Outcome.next (st.setNZ v) : Result) =
    .next { st with p := { st.p with n := v.getLsbD 7, z := decide (v = 0) } } := rfl

theorem store_frame (m : MemMode) (v : Byte) (st : State) :
    store m v st = { st with mem := (store m v st).mem } := rfl

theorem storesByte_store (m : MemMode) (v : Byte) (st : State) : StoresByte st (store m v st) (address m st) v :=
  fun b => Memory.read_write st.mem (address m st) b v

/-- An instruction whose whole operation is a store writes that byte and nothing else. -/
theorem exec_of_store {i : Instr} {m : MemMode} {v : Byte} {st : State} (h : exec i st = .next (store m v st)) :
    ∃ t, exec i st = .next t ∧ t = { st with mem := t.mem } ∧ StoresByte st t (address m st) v :=
  ⟨store m v st, h, store_frame m v st, storesByte_store m v st⟩

end Sys2Proof.Machine
end

section
/-! SUPPORT. The statements of 42_load_store_transfer.md, settled. -/

open Sys2Proof Sys2Proof.Machine

/-- Settles O14: each of the four is one store, of its own byte. -/
theorem storesWriteExactlyOneByte : Obligations.StoresWriteExactlyOneByte :=
  ⟨encodes_of_memRow fun _ => rfl, encodes_of_memRow fun _ => rfl, encodes_of_memRow fun _ => rfl,
    encodes_of_memRow fun _ => rfl, rfl,
    fun _ _ => ⟨exec_of_store rfl, exec_of_store rfl, exec_of_store rfl, exec_of_store rfl⟩⟩

/-- Settles O12: each of the four writes the byte loaded to its register, and `SetNZ` of that byte ends it. -/
theorem loadsWriteTheRegisterAndNZ : Obligations.LoadsWriteTheRegisterAndNZ := by
  refine ⟨encodes_of_loadRow fun _ => rfl, encodes_of_loadRow fun _ => rfl, encodes_of_loadRow fun _ => rfl,
    encodes_of_memRow fun _ => rfl, rfl, fun st => ⟨fun _ => rfl, fun _ => rfl, fun m => ?_, fun m => ?_,
    fun m => ?_, fun m => ?_⟩⟩
  · exact next_setNZ (load m st) (st.setA (load m st))
  · exact next_setNZ (load m st) (st.setX (load m st))
  · exact next_setNZ (load m st) (st.setY (load m st))
  · exact next_setNZ (load (.mem m) st) ((st.setA (load (.mem m) st)).setX (load (.mem m) st))

/-- Settles O13: each of the five copies a register and ends in `SetNZ` of the byte copied; TXS copies only. -/
theorem transfersCopyARegister : Obligations.TransfersCopyARegister :=
  ⟨rfl, fun st => ⟨next_setNZ st.a (st.setX st.a), next_setNZ st.a (st.setY st.a), next_setNZ st.x (st.setA st.x),
    next_setNZ st.y (st.setA st.y), next_setNZ st.s (st.setX st.s), rfl⟩⟩

end

section
/-! SUPPORT. Bytes as numbers: bit 7 and zero, which N and Z say (10_state.md R20), the sign mask of the two V formulas
(43_arithmetic.md R151, R155), steps by one modulo 256, and the two digits of a byte (R154, R157). -/

namespace Sys2Proof.Machine

/-! ### N, Z and steps by one -/

theorem msb_iff_le_toNat (v : Byte) : v.msb = true ↔ 128 ≤ v.toNat := by
  rw [BitVec.msb_eq_decide, decide_eq_true_iff]

theorem bit7_iff_le_toNat (v : Byte) : bit v 7 = true ↔ 128 ≤ v.toNat :=
  msb_iff_le_toNat v

theorem beq_zero_iff_toNat (v : Byte) : (v == 0) = true ↔ v.toNat = 0 :=
  beq_iff_eq.trans BitVec.toNat_eq

/-- `SetNZ(v)` by the value of the byte. -/
theorem setNZ_toNat (v : Byte) (st : State) :
    st.setNZ v = { st with p := { st.p with n := decide (128 ≤ v.toNat), z := decide (v.toNat = 0) } } := by
  have hn : bit v 7 = decide (128 ≤ v.toNat) := Bool.eq_iff_iff.2 ((bit7_iff_le_toNat v).trans decide_eq_true_iff.symm)
  have hz : (v == 0) = decide (v.toNat = 0) := Bool.eq_iff_iff.2 ((beq_zero_iff_toNat v).trans decide_eq_true_iff.symm)
  rw [← hn, ← hz]
  rfl

/-- An operation that ends in `SetNZ(v)` has written N and Z last, by the value of the byte. -/
theorem next_setNZ_toNat (v : Byte) (st : State) : (Host.Outcome.next (st.setNZ v) : Result) =
    .next { st with p := { st.p with n := decide (128 ≤ v.toNat), z := decide (v.toNat = 0) } } :=
  congrArg Host.Outcome.next (setNZ_toNat v st)

theorem add_one_toNat (v : Byte) : (v + 1).toNat = (v.toNat + 1) % 256 := BitVec.toNat_add v 1

theorem sub_one_toNat (v : Byte) : (v - 1).toNat = (v.toNat + 255) % 256 :=
  (BitVec.toNat_sub v 1).trans (congrArg (· % 256) (Nat.add_comm 255 v.toNat))

/-! ### The sign mask -/

/-- The mask 0x80 keeps bit 7, so a masked conjunction is not zero exactly when both sides have it. -/
theorem and_signMask_ne_zero_iff (x y : Byte) : x &&& y &&& 0x80#8 ≠ 0#8 ↔ x.msb = true ∧ y.msb = true := by
  have mask : x &&& y &&& 0x80#8 = if (x &&& y).msb = true then 0x80#8 else 0#8 := BitVec.and_twoPow (x &&& y) 7
  rw [mask, ite_ne_right_iff, BitVec.msb_and, Bool.and_eq_true]
  exact and_iff_left (by decide)

theorem xor_msb_iff (x y : Byte) : (x ^^^ y).msb = true ↔ ¬ (128 ≤ x.toNat ↔ 128 ≤ y.toNat) := by
  rw [BitVec.msb_xor, Bool.xor_iff_ne, ne_eq, Bool.eq_iff_iff, msb_iff_le_toNat, msb_iff_le_toNat]

/-- The two's-complement reading of a byte, by its bit 7. -/
theorem byte_toInt (v : Byte) : v.toInt = if 128 ≤ v.toNat then (v.toNat : Int) - 256 else (v.toNat : Int) := by
  rw [BitVec.toInt_eq_msb_cond]
  simp only [msb_iff_le_toNat]
  rfl

/-! ### The complement -/

theorem complement_toNat (m : Byte) : (m ^^^ 0xFF#8).toNat = 255 - m.toNat := by
  rw [show 0xFF#8 = BitVec.allOnes 8 from rfl, BitVec.xor_allOnes, BitVec.toNat_not]

/-- Complementing a byte negates its two's-complement reading and subtracts one. -/
theorem complement_toInt (m : Byte) : (m ^^^ 0xFF#8).toInt = -m.toInt - 1 := by
  have hm := m.isLt
  rw [byte_toInt, byte_toInt, complement_toNat]
  split <;> split <;> omega

/-! ### Digits -/

theorem nibbles_toNat (h l : Nat) : (nibbles h l).toNat = h % 16 * 16 + l % 16 := by
  rw [nibbles, BitVec.toNat_ofNat]
  omega

end Sys2Proof.Machine
end

section
/-! SUPPORT. The four ALU functions (43_arithmetic.md R151 to R157): the results as numbers, subtraction as addition of
the complement, and the digits of the decimal results. -/

namespace Sys2Proof.Machine

/-! ### Binary -/

theorem addBin_r_toNat (a m : Byte) (c : Bool) :
    (addBin a m c).r.toNat = (a.toNat + m.toNat + c.toNat) % 256 :=
  BitVec.toNat_ofNat _ 8

theorem addBin_c_iff (a m : Byte) (c : Bool) :
    (addBin a m c).c = true ↔ 256 ≤ a.toNat + m.toNat + c.toNat :=
  decide_eq_true_iff

/-- The low byte and the carry are the exact nine-bit sum. -/
theorem addBin_exact (a m : Byte) (c : Bool) :
    (addBin a m c).r.toNat + 256 * (addBin a m c).c.toNat = a.toNat + m.toNat + c.toNat := by
  have ha := a.isLt
  have hm := m.isLt
  have hc := c.toNat_le
  have carry : (addBin a m c).c.toNat = if 256 ≤ a.toNat + m.toNat + c.toNat then 1 else 0 := Bool.cond_decide ..
  rw [addBin_r_toNat, carry]
  split <;> omega

theorem addBin_n_iff (a m : Byte) (c : Bool) : (addBin a m c).n = true ↔ 128 ≤ (addBin a m c).r.toNat :=
  bit7_iff_le_toNat _

theorem addBin_z_iff (a m : Byte) (c : Bool) : (addBin a m c).z = true ↔ (addBin a m c).r.toNat = 0 :=
  beq_zero_iff_toNat _

theorem addBin_v_iff (a m : Byte) (c : Bool) :
    (addBin a m c).v = true ↔ (a ^^^ (addBin a m c).r) &&& (m ^^^ (addBin a m c).r) &&& 0x80#8 ≠ 0#8 :=
  bne_iff_ne

theorem subBin_r_toNat (a m : Byte) (c : Bool) :
    ((subBin a m c).r.toNat : Int) = ((a.toNat : Int) - m.toNat - (1 - c.toNat)) % 256 :=
  (congrArg Nat.cast (BitVec.toNat_ofInt _)).trans (Int.toNat_of_nonneg (Int.emod_nonneg _ (by decide)))

theorem subBin_c_iff (a m : Byte) (c : Bool) :
    (subBin a m c).c = true ↔ 0 ≤ (a.toNat : Int) - m.toNat - (1 - c.toNat) :=
  decide_eq_true_iff

/-- The low byte and the borrow are the exact difference. -/
theorem subBin_exact (a m : Byte) (c : Bool) :
    ((subBin a m c).r.toNat : Int) - 256 * (1 - ((subBin a m c).c.toNat : Int)) =
      (a.toNat : Int) - m.toNat - (1 - c.toNat) := by
  have ha := a.isLt
  have hm := m.isLt
  have hc := c.toNat_le
  have noBorrow : (subBin a m c).c.toNat = if 0 ≤ (a.toNat : Int) - m.toNat - (1 - c.toNat) then 1 else 0 :=
    Bool.cond_decide ..
  rw [subBin_r_toNat, noBorrow]
  split <;> omega

theorem subBin_n_iff (a m : Byte) (c : Bool) : (subBin a m c).n = true ↔ 128 ≤ (subBin a m c).r.toNat :=
  bit7_iff_le_toNat _

theorem subBin_z_iff (a m : Byte) (c : Bool) : (subBin a m c).z = true ↔ (subBin a m c).r.toNat = 0 :=
  beq_zero_iff_toNat _

theorem subBin_v_iff (a m : Byte) (c : Bool) :
    (subBin a m c).v = true ↔ (a ^^^ (subBin a m c).r) &&& (a ^^^ m) &&& 0x80#8 ≠ 0#8 :=
  bne_iff_ne

/-- Subtracting with a borrow is adding the complement with the carry (R155): the sum is the difference plus 256, and
where the result's bit 7 differs from `a`'s, it differs from the complement's exactly when `a`'s differs from `m`'s. -/
theorem subBin_eq_addBin_complement (a m : Byte) (c : Bool) : subBin a m c = addBin a (m ^^^ 0xFF#8) c := by
  have hm := m.isLt
  have hcomp := complement_toNat m
  have hr : (subBin a m c).r = (addBin a (m ^^^ 0xFF#8) c).r := by
    have hsub := subBin_r_toNat a m c
    have hadd := addBin_r_toNat a (m ^^^ 0xFF#8) c
    exact BitVec.eq_of_toNat_eq (by omega)
  have hc : (subBin a m c).c = (addBin a (m ^^^ 0xFF#8) c).c := by
    rw [Bool.eq_iff_iff, subBin_c_iff, addBin_c_iff]
    omega
  have hv : (subBin a m c).v = (addBin a (m ^^^ 0xFF#8) c).v := by
    rw [Bool.eq_iff_iff, subBin_v_iff, addBin_v_iff, and_signMask_ne_zero_iff, and_signMask_ne_zero_iff, ← hr]
    simp only [xor_msb_iff, hcomp]
    omega
  have hn : (subBin a m c).n = (addBin a (m ^^^ 0xFF#8) c).n := congrArg (bit · 7) hr
  have hz : (subBin a m c).z = (addBin a (m ^^^ 0xFF#8) c).z := congrArg (· == 0) hr
  calc subBin a m c
      = ⟨(subBin a m c).r, (subBin a m c).n, (subBin a m c).v, (subBin a m c).z, (subBin a m c).c⟩ := rfl
    _ = addBin a (m ^^^ 0xFF#8) c := by rw [hr, hn, hv, hz, hc]

/-- V of an addition is signed overflow (R152): both operands' signs differ from the result's. -/
theorem addBin_v_iff_overflow (a m : Byte) (c : Bool) :
    (addBin a m c).v = true ↔
      ¬ (-128 ≤ a.toInt + m.toInt + (c.toNat : Int) ∧ a.toInt + m.toInt + (c.toNat : Int) ≤ 127) := by
  have ha := a.isLt
  have hm := m.isLt
  have hc := c.toNat_le
  rw [addBin_v_iff, and_signMask_ne_zero_iff, xor_msb_iff, xor_msb_iff, addBin_r_toNat, byte_toInt, byte_toInt]
  split <;> split <;> omega

/-! ### Decimal -/

/-- A sum of two digits and a carry, six added past nine: the digit it leaves. -/
theorem addedDigit_eq_mod {n : Nat} (h : n ≤ 19) : (if n > 9 then n + 6 else n) % 16 = n % 10 := by
  split <;> omega

/-- The carry of such a sum. -/
theorem addedDigit_carry {n : Nat} (h : n ≤ 19) : (if n > 9 then 1 else 0) = n / 10 := by
  split <;> omega

/-- A difference of two digits and a borrow, ten added below zero: the digit it leaves. -/
theorem subtractedDigit_eq_mod {n : Int} (h : -10 ≤ n) (h' : n ≤ 9) :
    ((((if n < 0 then n + 10 else n) % 256).toNat % 16 : Nat) : Int) = n % 10 := by
  split <;> omega

/-- The borrow of such a difference. -/
theorem subtractedDigit_borrow {n : Int} (h : -10 ≤ n) (h' : n ≤ 9) : (if n < 0 then 1 else 0) = -(n / 10) := by
  split <;> omega

section ValidDigits

variable {a m : Byte} (c : Bool) (hah : a.toNat / 16 ≤ 9) (hal : a.toNat % 16 ≤ 9)
  (hmh : m.toNat / 16 ≤ 9) (hml : m.toNat % 16 ≤ 9)
include hah hal hmh hml

/-- Decimal addition of valid digits: each sum's last digit, a carry from the low to the high digit and out of it. -/
theorem addDec_of_validDigits :
    let low := a.toNat % 16 + m.toNat % 16 + c.toNat
    let high := a.toNat / 16 + m.toNat / 16 + low / 10
    (addDec a m c).r.toNat = high % 10 * 16 + low % 10 ∧ ((addDec a m c).c = true ↔ 10 ≤ high) := by
  intro low high
  have hc := c.toNat_le
  have hlow : low ≤ 19 := by omega
  have hhigh : high ≤ 19 := by omega
  have carry : a.toNat / 16 + m.toNat / 16 + (if low > 9 then 1 else 0) = high :=
    congrArg (a.toNat / 16 + m.toNat / 16 + ·) (addedDigit_carry hlow)
  have result : (addDec a m c).r = nibbles (if high > 9 then high + 6 else high) (if low > 9 then low + 6 else low) :=
    carry ▸ rfl
  have carryOut : (addDec a m c).c = decide (high > 9) := carry ▸ rfl
  rw [result, nibbles_toNat, addedDigit_eq_mod hlow, addedDigit_eq_mod hhigh, carryOut, decide_eq_true_iff]
  exact ⟨rfl, Iff.rfl⟩

/-- Decimal subtraction of valid digits: each difference modulo ten, a borrow from the high digit by the low one. -/
theorem subDec_of_validDigits :
    let low : Int := (a.toNat % 16 : Nat) - (m.toNat % 16 : Nat) - (1 - c.toNat)
    let high : Int := (a.toNat / 16 : Nat) - (m.toNat / 16 : Nat) + low / 10
    ((subDec a m c).r.toNat : Int) = high % 10 * 16 + low % 10 := by
  intro low high
  have hc := c.toNat_le
  have hlow : -10 ≤ low ∧ low ≤ 9 := by omega
  have hhigh : -10 ≤ high ∧ high ≤ 9 := by omega
  have borrow : ((a.toNat / 16 : Nat) : Int) - (m.toNat / 16 : Nat) - (if low < 0 then 1 else 0) = high := by
    rw [subtractedDigit_borrow hlow.1 hlow.2]
    omega
  have result : (subDec a m c).r = nibbles ((if high < 0 then high + 10 else high) % 256).toNat
      ((if low < 0 then low + 10 else low) % 256).toNat := borrow ▸ rfl
  rw [result, nibbles_toNat, Nat.cast_add, Nat.cast_mul, subtractedDigit_eq_mod hlow.1 hlow.2,
    subtractedDigit_eq_mod hhigh.1 hhigh.2]
  rfl

end ValidDigits

end Sys2Proof.Machine
end

section
/-! SUPPORT. The operations of 43_arithmetic.md: what an addition to A and a subtraction from A write (R153, R156), what
a compare leaves (R158), and a memory byte stepped and written back (41_addressing_modes.md R116). -/

namespace Sys2Proof.Machine

/-- The addition to A writes A and four flags from the arithmetic D selects; D and I stay (R153). -/
theorem addToA_eq (m : Byte) (st : State) : addToA m st =
    let t := if st.p.d then addDec st.a m st.p.c else addBin st.a m st.p.c
    { st with a := t.r, p := { st.p with n := t.n, v := t.v, z := t.z, c := t.c } } := rfl

/-- The subtraction from A writes A and four flags from the arithmetic D selects; D and I stay (R156). -/
theorem subFromA_eq (m : Byte) (st : State) : subFromA m st =
    let t := if st.p.d then subDec st.a m st.p.c else subBin st.a m st.p.c
    { st with a := t.r, p := { st.p with n := t.n, v := t.v, z := t.z, c := t.c } } := rfl

theorem compared_compareByte (r m : Byte) (st : State) : Compared st (compareByte r m st) r m := by
  have hm := m.isLt
  refine ⟨rfl, decide_eq_true_iff, beq_iff_eq.trans sub_eq_zero, (bit7_iff_le_toNat (r - m)).trans ?_⟩
  rw [BitVec.toNat_sub]
  omega

/-- An instruction whose whole operation is a read-modify-write of one byte, ended by `SetNZ` of the byte written. -/
theorem exec_of_modify_setNZ {i : Instr} {m : MemMode} {st : State} (f : Byte → Byte) {n : Nat}
    (h : exec i st = .next ((modify f m st).2.setNZ (modify f m st).1))
    (hf : (f (st.mem.read (address m st))).toNat = n) :
    ∃ t r, exec i st = .next t ∧ r.toNat = n ∧ StoresByte st t (address m st) r ∧
      t = { st with mem := t.mem, p := { st.p with n := decide (128 ≤ r.toNat), z := decide (r.toNat = 0) } } := by
  refine ⟨_, f (st.mem.read (address m st)), h, hf, storesByte_store m _ st, ?_⟩
  rw [setNZ_toNat, modify_eq]

end Sys2Proof.Machine
end

section
/-! SUPPORT. The statements of 43_arithmetic.md, settled. -/

open Sys2Proof Sys2Proof.Machine

/-- Settles O15: the low byte and the carry are the two parts of the sum, and the carry differs from `r < a` only where
the sum is `a + 256`. -/
theorem binaryAdditionIsTheExactSum : Obligations.BinaryAdditionIsTheExactSum := by
  intro a m c t sum
  have hr : t.r.toNat = sum % 256 := addBin_r_toNat a m c
  refine ⟨addBin_exact a m c, ?_, ?_, addBin_v_iff a m c, ?_⟩
  · rw [← hr]
    exact addBin_z_iff a m c
  · rw [← hr]
    exact addBin_n_iff a m c
  · have ha := a.isLt
    have hm := m.isLt
    have hc := c.toNat_le
    have carry : t.c = decide (256 ≤ sum) := rfl
    have full : m = 0xFF#8 ↔ m.toNat = 255 := BitVec.toNat_eq
    rw [carry, ne_eq, decide_eq_decide, hr, full, ← Bool.toNat_eq_one]
    omega

/-- Settles O16: the low byte and the borrow are the two parts of the difference. -/
theorem binarySubtractionIsTheExactDifference : Obligations.BinarySubtractionIsTheExactDifference := by
  intro a m c t d
  have hr : (t.r.toNat : Int) = d % 256 := subBin_r_toNat a m c
  refine ⟨subBin_exact a m c, ?_, ?_, subBin_v_iff a m c, subBin_eq_addBin_complement a m c⟩
  · rw [← hr, Int.natCast_eq_zero]
    exact subBin_z_iff a m c
  · rw [← hr, Nat.ofNat_le_cast]
    exact subBin_n_iff a m c

/-- Settles O17: for the difference, subtracting is adding the complement, which reads `-m - 1`. -/
theorem overflowFlagIsSignedOverflow : Obligations.OverflowFlagIsSignedOverflow := by
  intro a m c
  refine ⟨addBin_v_iff_overflow a m c, ?_⟩
  rw [subBin_eq_addBin_complement, addBin_v_iff_overflow, complement_toInt]
  omega

/-- Settles O18: the decimal sum is its digit sums with the carry between them. -/
theorem decimalAdditionOfValidDigits : Obligations.DecimalAdditionOfValidDigits := by
  intro a m c hah hal hmh hml
  obtain ⟨hr, hc⟩ := addDec_of_validDigits c hah hal hmh hml
  dsimp only
  refine ⟨?_, ?_, ?_, hc.trans ?_, rfl, rfl, rfl⟩ <;> omega

/-- Settles O19: the decimal difference is its digit differences with the borrow between them, and digits up to 9 borrow
in base 10 exactly when they do in base 16. -/
theorem decimalSubtractionOfValidDigits : Obligations.DecimalSubtractionOfValidDigits := by
  intro a m c hah hal hmh hml
  have hr := subDec_of_validDigits c hah hal hmh hml
  have hc := c.toNat_le
  dsimp only
  refine ⟨?_, ?_, ?_, (subBin_c_iff a m c).trans ?_, rfl, rfl, rfl, rfl⟩ <;> omega

/-- Settles O21: each of the three is the one compare, of its own register. -/
theorem comparesWriteOnlyNZC : Obligations.ComparesWriteOnlyNZC :=
  ⟨encodes_of_loadRow fun _ => rfl, encodes_of_loadRow fun _ => rfl, encodes_of_loadRow fun _ => rfl,
    fun m st => ⟨⟨_, rfl, compared_compareByte st.a (load m st) st⟩, ⟨_, rfl, compared_compareByte st.x (load m st) st⟩,
      ⟨_, rfl, compared_compareByte st.y (load m st) st⟩⟩⟩

/-- Settles O22: each of the two is one read-modify-write, by its own step. -/
theorem incrementAndDecrementMemory : Obligations.IncrementAndDecrementMemory :=
  ⟨encodes_of_memRow fun _ => rfl, encodes_of_memRow fun _ => rfl,
    fun _ _ => ⟨exec_of_modify_setNZ (fun v => v + 1) rfl (add_one_toNat _),
      exec_of_modify_setNZ (fun v => v - 1) rfl (sub_one_toNat _)⟩⟩

/-- Settles O20: the three end in the one write of an ALU result to A and the four flags. -/
theorem addAndSubtractWriteAAndFourFlags : Obligations.AddAndSubtractWriteAAndFourFlags :=
  ⟨encodes_of_loadRow fun _ => rfl, encodes_of_loadRow fun _ => rfl, fun _ => rfl,
    fun st => ⟨fun m => congrArg Host.Outcome.next (addToA_eq (load m st) st),
      fun m => congrArg Host.Outcome.next (subFromA_eq (load m st) st), fun _ => rfl,
      fun op1 => congrArg Host.Outcome.next (subFromA_eq op1 st)⟩⟩

/-- Settles O23: each of the four steps its register and ends in `SetNZ` of it. -/
theorem incrementAndDecrementIndexRegisters : Obligations.IncrementAndDecrementIndexRegisters :=
  ⟨rfl, fun st =>
    ⟨⟨st.x + 1, add_one_toNat st.x, next_setNZ_toNat _ (st.setX (st.x + 1))⟩,
      ⟨st.y + 1, add_one_toNat st.y, next_setNZ_toNat _ (st.setY (st.y + 1))⟩,
      ⟨st.x - 1, sub_one_toNat st.x, next_setNZ_toNat _ (st.setX (st.x - 1))⟩,
      ⟨st.y - 1, sub_one_toNat st.y, next_setNZ_toNat _ (st.setY (st.y - 1))⟩⟩⟩

end

section
/-! SUPPORT. The opcode bytes by mode of a shift or rotate, the four shift functions as numbers, and what a shift writes
through each kind of operand (44_logic_shift.md R184, R185). -/

namespace Sys2Proof.Machine

/-! ### Encoding -/

theorem opcodeRow_rmw (table : List (Mode × Byte)) (m : RmwMode) :
    (opcodeRow table).rmw m = table.lookup m.mode := by
  cases m with
  | accumulator => rfl
  | mem m => exact opcodeRow_mem table m

theorem encodes_of_rmwRow {f : RmwMode → Instr} {table : List (Mode × Byte)}
    (h : ∀ m, (f m).opcode = (opcodeRow table).rmw m) : Encodes f RmwMode.mode table :=
  fun m => (h m).trans (opcodeRow_rmw table m)

/-! ### A byte moved by one place -/

theorem bit_toNat (v : Byte) (i : Nat) : (bit v i).toNat = v.toNat / 2 ^ i % 2 := Nat.toNat_testBit v.toNat i

theorem shiftLeft_one_toNat (v : Byte) : (v <<< 1).toNat = 2 * v.toNat % 256 := by
  rw [BitVec.toNat_shiftLeft, Nat.shiftLeft_eq, pow_one, Nat.mul_comm]

theorem ushiftRight_one_toNat (v : Byte) : (v >>> 1).toNat = v.toNat / 2 := by
  rw [BitVec.toNat_ushiftRight, Nat.shiftRight_one]

/-- Bytes with no bit in common are joined by adding them. -/
theorem or_toNat_of_and_eq_zero {x y : Byte} (h : x &&& y = 0#8) : (x ||| y).toNat = x.toNat + y.toNat := by
  rw [← BitVec.add_eq_or_of_and_eq_zero x y h, BitVec.toNat_add_of_and_eq_zero h]

/-! ### The four functions -/

/-- Doubling a byte gives nine bits: the bit shifted out and the result. -/
theorem aslByte_exact (v : Byte) (c : Bool) :
    2 * v.toNat = 256 * (aslByte v c).c.toNat + (aslByte v c).r.toNat := by
  have hv := v.isLt
  have hr : (aslByte v c).r.toNat = 2 * v.toNat % 256 := shiftLeft_one_toNat v
  have hc : (aslByte v c).c.toNat = v.toNat / 128 % 2 := bit_toNat v 7
  omega

/-- Halving a byte gives the result, and the bit shifted out as the remainder. -/
theorem lsrByte_exact (v : Byte) (c : Bool) : v.toNat = 2 * (lsrByte v c).r.toNat + (lsrByte v c).c.toNat := by
  have hr : (lsrByte v c).r.toNat = v.toNat / 2 := ushiftRight_one_toNat v
  have hc : (lsrByte v c).c.toNat = v.toNat / 1 % 2 := bit_toNat v 0
  omega

/-- The old carry enters the place that ASL leaves empty. -/
theorem rolByte_r_toNat (v : Byte) (c : Bool) : (rolByte v c).r.toNat = (aslByte v c).r.toNat + c.toNat := by
  have carry : ((BitVec.ofBool c).setWidth 8).toNat = c.toNat := by cases c <;> rfl
  have disjoint : v <<< 1 &&& (BitVec.ofBool c).setWidth 8 = 0#8 := by
    ext i
    cases i <;> simp
  exact (or_toNat_of_and_eq_zero disjoint).trans (congrArg ((v <<< 1).toNat + ·) carry)

/-- The old carry enters the place that LSR leaves empty. -/
theorem rorByte_r_toNat (v : Byte) (c : Bool) : (rorByte v c).r.toNat = (lsrByte v c).r.toNat + 128 * c.toNat := by
  have carry : ((BitVec.ofBool c).setWidth 8 <<< 7).toNat = 128 * c.toNat := by cases c <;> rfl
  have disjoint : v >>> 1 &&& (BitVec.ofBool c).setWidth 8 <<< 7 = 0#8 := by
    ext i hi
    obtain hlow | rfl : i < 7 ∨ i = 7 := by omega
    · simp [hlow]
    · simp
  exact (or_toNat_of_and_eq_zero disjoint).trans (congrArg ((v >>> 1).toNat + ·) carry)

/-- ROL shifts out the bit ASL does, so only the carry that enters is added. -/
theorem rolByte_exact (v : Byte) (c : Bool) :
    2 * v.toNat + c.toNat = 256 * (rolByte v c).c.toNat + (rolByte v c).r.toNat := by
  have hasl := aslByte_exact v c
  have hc : (rolByte v c).c = (aslByte v c).c := rfl
  rw [rolByte_r_toNat, hc]
  omega

/-- ROR shifts out the bit LSR does, so only the carry that enters is added. -/
theorem rorByte_exact (v : Byte) (c : Bool) :
    v.toNat + 256 * c.toNat = 2 * (rorByte v c).r.toNat + (rorByte v c).c.toNat := by
  have hlsr := lsrByte_exact v c
  have hc : (rorByte v c).c = (lsrByte v c).c := rfl
  rw [rorByte_r_toNat, hc]
  omega

/-! ### The operand -/

theorem shift_accumulator (f : Byte → Bool → ShiftResult) (st : State) : shift f .accumulator st =
    { st with a := (f st.a st.p.c).r, p := shiftedStatus st.p (f st.a st.p.c) } := rfl

theorem shift_mem (f : Byte → Bool → ShiftResult) (m : MemMode) (st : State) : shift f (.mem m) st =
    let sh := f (st.mem.read (address m st)) st.p.c
    { st with mem := (store m sh.r st).mem, p := shiftedStatus st.p sh } := rfl

/-- An instruction whose whole operation is a shift writes A, or that one byte of memory, and three flags. -/
theorem exec_of_shift {i : RmwMode → Instr} {f : Byte → Bool → ShiftResult} {st : State}
    (h : ∀ m, exec (i m) st = .next (shift f m st)) :
    exec (i .accumulator) st = .next { st with
      a := (f st.a st.p.c).r, p := shiftedStatus st.p (f st.a st.p.c) } ∧
    ∀ m, ∃ t, let sh := f (st.mem.read (address m st)) st.p.c
      exec (i (.mem m)) st = .next t ∧ StoresByte st t (address m st) sh.r ∧
      t = { st with mem := t.mem, p := shiftedStatus st.p sh } :=
  ⟨(h .accumulator).trans (congrArg Host.Outcome.next (shift_accumulator f st)),
    fun m => ⟨shift f (.mem m) st, h (.mem m), storesByte_store m _ st, shift_mem f m st⟩⟩

end Sys2Proof.Machine
end

section
/-! SUPPORT. The statements of 44_logic_shift.md, settled. -/

open Sys2Proof Sys2Proof.Machine

/-- Settles O25: the four functions by their sums, and each instruction is one shift by its own function. -/
theorem shiftsAndRotates : Obligations.ShiftsAndRotates := by
  refine ⟨encodes_of_rmwRow fun _ => rfl, encodes_of_rmwRow fun _ => rfl, encodes_of_rmwRow fun _ => rfl,
    encodes_of_rmwRow fun _ => rfl,
    fun v c => ⟨aslByte_exact v c, lsrByte_exact v c, rolByte_exact v c, rorByte_exact v c⟩, fun st => ?_⟩
  simp only [List.forall_mem_cons]
  exact ⟨exec_of_shift fun _ => rfl, exec_of_shift fun _ => rfl, exec_of_shift fun _ => rfl,
    exec_of_shift fun _ => rfl, List.forall_mem_nil _⟩

/-- Settles O24: each of the three writes its bitwise result to A and ends in `SetNZ` of it; BIT writes flags only. -/
theorem logicAndBitTest : Obligations.LogicAndBitTest :=
  ⟨encodes_of_loadRow fun _ => rfl, encodes_of_loadRow fun _ => rfl, encodes_of_loadRow fun _ => rfl,
    encodes_of_memRow fun _ => rfl, fun st =>
    ⟨fun m => ⟨st.a &&& load m st, fun _ => BitVec.getLsbD_and, next_setNZ_toNat _ (st.setA (st.a &&& load m st))⟩,
      fun m => ⟨st.a ||| load m st, fun _ => BitVec.getLsbD_or, next_setNZ_toNat _ (st.setA (st.a ||| load m st))⟩,
      fun m => ⟨st.a ^^^ load m st, fun _ => BitVec.getLsbD_xor, next_setNZ_toNat _ (st.setA (st.a ^^^ load m st))⟩,
      fun _ => rfl⟩⟩

end

section
/-! SUPPORT. The operations of 45_control_flow.md: what a branch's flag decides (R200), the pointer of JMP indirect as
numbers (41_addressing_modes.md R111), and the word JSR pushes and RTS pops (R212, R213). -/

namespace Sys2Proof.Machine

/-! ### Branches -/

theorem branch_eq (b : Branch) (st : State) :
    branch b st = if st.p.get b.flag = b.want then { st with pc := branchTarget b.op1 st } else st := by
  simp only [branch, Branch.taken, beq_iff_eq]
  rfl

theorem Branch.stalls_eq (b : Branch) (st : State) :
    b.stalls st =
      if st.p.get b.flag ≠ b.want then 0
      else if (branchTarget b.op1 st).toNat / 256 = st.pc.toNat / 256 then 1 else 2 := by
  split
  case isTrue h => exact Branch.stalls_of_not_taken h
  case isFalse h => exact Branch.stalls_of_taken (not_not.mp h)

theorem accessMode_of_branchOf {i : Instr} {b : Branch} (h : branchOf i = some b) : accessMode i = none := by
  rcases hm : accessMode i with _ | m
  case none => rfl
  case some => cases (branchOf_of_accessMode hm).symm.trans h

/-- The eight instructions with a branch are that branch and nothing else. -/
theorem exec_of_branchOf {i : Instr} {b : Branch} (h : branchOf i = some b) (st : State) :
    exec i st = .next (branch b st) := by
  cases i with
  | bcc op1 | bcs op1 | beq op1 | bne op1 | bmi op1 | bpl op1 | bvc op1 | bvs op1 => cases h; rfl
  | _ => cases h

/-- An instruction with a branch, as its flag decides: where PC goes and how many extra ticks it takes. -/
theorem branch_by_flag {i : Instr} {flag : FlagName} {want : Bool} {op1 : Byte}
    (h : branchOf i = some { flag := flag, want := want, op1 := op1 }) (st : State) :
    exec i st = .next (if st.p.get flag = want then { st with pc := branchTarget op1 st } else st) ∧
    stallsNeeded i st =
      (if st.p.get flag ≠ want then 0
       else if (branchTarget op1 st).toNat / 256 = st.pc.toNat / 256 then 1 else 2) :=
  ⟨(exec_of_branchOf h st).trans (congrArg Host.Outcome.next (branch_eq _ st)),
    (stallsNeeded_of_branchOf (accessMode_of_branchOf h) h st).trans (Branch.stalls_eq _ st)⟩

/-! ### The indirect jump -/

/-- The address of the pointer's high byte: within the page with `JMP_IND_PAGE_WRAP`, else the next one. -/
theorem indirectHigh_toNat (wrap : Bool) {op1 op2 : Byte} {n : Nat} (hn : (word op2 op1).toNat = n) :
    (if wrap then word op2 (op1 + 1) else word op2 op1 + 1).toNat =
      if wrap then n / 256 * 256 + (n + 1) % 256 else (n + 1) % 65536 := by
  cases wrap with
  | true =>
    have hop1 := op1.isLt
    have hhigh : (word op2 (op1 + 1)).toNat = n / 256 * 256 + (n + 1) % 256 := by
      rw [word_toNat] at hn
      rw [word_toNat, add_one_toNat]
      omega
    exact hhigh
  | false => exact hn ▸ word_succ_toNat (word op2 op1)

theorem indirectTarget_eq (op1 op2 : Byte) (st : State) :
    indirectTarget op1 op2 st =
      word (st.mem.read (if st.params.jmpIndPageWrap then word op2 (op1 + 1) else word op2 op1 + 1))
        (st.mem.read (word op2 op1)) := by
  unfold indirectTarget
  split <;> rfl

theorem indirectTarget_toNat {op1 op2 : Byte} {n : Nat} (hn : (word op2 op1).toNat = n) (st : State) :
    (indirectTarget op1 op2 st).toNat = (st.mem.get n).toNat +
      256 * (st.mem.get (if st.params.jmpIndPageWrap then n / 256 * 256 + (n + 1) % 256
        else (n + 1) % 65536)).toNat := by
  rw [indirectTarget_eq, word_toNat, Memory.read, Memory.read, indirectHigh_toNat _ hn, hn, Nat.mul_comm, Nat.add_comm]

/-! ### The word on the stack -/

/-- The two bytes of a pushed word lie at different locations, even where S wraps. -/
theorem stackAddr_sub_one_ne (s : Byte) : stackAddr (s - 1) ≠ stackAddr s :=
  fun h => absurd (sub_eq_self.mp (stackAddr_inj.mp h)) (by decide)

theorem storesTwo_pushWord (w : Word) (st : State) :
    StoresTwo st (pushWord w st) (stackAddr st.s) (hi w) (stackAddr (st.s - 1)) (lo w) := by
  intro b
  have hne := (stackAddr_sub_one_ne st.s).symm
  simp only [pushWord_eq, Memory.read_write]
  by_cases hb : b = stackAddr st.s
  case pos => simp only [hb, if_neg hne, if_true]
  case neg => simp only [if_neg hb]

theorem exec_jsr (op1 op2 : Byte) (st : State) :
    exec (.jsr op1 op2) st =
      .next { st with mem := (pushWord (st.pc - 1) st).mem, s := st.s - 2, pc := word op2 op1 } := by
  have hs : st.s - 1 - 1 = st.s - 2 := BitVec.sub_sub st.s 1 1
  rw [← hs]
  rfl

theorem exec_rts (st : State) :
    exec .rts st = .next { st with
      s := st.s + 2
      pc := word (st.mem.read (stackAddr (st.s + 2))) (st.mem.read (stackAddr (st.s + 1))) + 1 } := by
  have hs : st.s + 1 + 1 = st.s + 2 := BitVec.add_assoc st.s 1 1
  rw [← hs]
  rfl

/-- RTS with a word's two bytes above S goes to the byte after that word's address. -/
theorem exec_rts_of_pushed {st t : State} {w pc : Word}
    (h : StoresTwo st t (stackAddr st.s) (hi w) (stackAddr (st.s - 1)) (lo w)) (hs : t.s = st.s - 2) :
    exec .rts { t with pc := pc } = .next { t with s := st.s, pc := w + 1 } := by
  have htop : t.s + 2 = st.s := by rw [hs, BitVec.sub_add_cancel]
  have hbelow : t.s + 1 = st.s - 1 := by rw [← htop, add_sub_assoc]; rfl
  have hhigh : t.mem.read (stackAddr st.s) = hi w := (h _).trans (if_pos rfl)
  have hlow : t.mem.read (stackAddr (st.s - 1)) = lo w := (h _).trans ((if_neg (stackAddr_sub_one_ne st.s)).trans (if_pos rfl))
  rw [exec_rts]
  simp only [htop, hbelow, hhigh, hlow, word_hi_lo]

end Sys2Proof.Machine
end

section
/-! SUPPORT. The statements of 45_control_flow.md, settled. -/

open Sys2Proof Sys2Proof.Machine

/-- Settles O27: the operand is the word of the two operand bytes, and it names the pointer's low byte. -/
theorem jumpsWriteOnlyPC : Obligations.JumpsWriteOnlyPC := by
  intro op1 op2 st
  have hoperand := operandWord_toNat op1 op2
  exact ⟨⟨rfl, rfl⟩, ⟨rfl, rfl⟩, ⟨word op2 op1, rfl, hoperand⟩,
    ⟨indirectTarget op1 op2 st, rfl, indirectTarget_toNat hoperand st⟩⟩

/-- Settles O28: one pushed word, and a jump to the operand. -/
theorem jsrPushesTheReturnAddressLessOne : Obligations.JsrPushesTheReturnAddressLessOne :=
  fun op1 op2 st => ⟨⟨rfl, rfl⟩, _, word op2 op1, exec_jsr op1 op2 st, operandWord_toNat op1 op2, rfl,
    storesTwo_pushWord (st.pc - 1) st⟩

/-- Settles O29: the word popped is the one the JSR has pushed, and one more is the PC before the JSR's operation. -/
theorem rtsReturnsBehindTheJsr : Obligations.RtsReturnsBehindTheJsr := by
  refine ⟨⟨rfl, rfl⟩, fun st => ⟨exec_rts st, fun op1 op2 pc => ?_⟩⟩
  have hpushed := storesTwo_pushWord (st.pc - 1) st
  have hback : st.pc - 1 + 1 = st.pc := BitVec.sub_add_cancel st.pc 1
  refine ⟨_, _, exec_jsr op1 op2 st, exec_rts_of_pushed hpushed rfl, ?_, hpushed⟩
  rw [hback]

/-- Settles O26: each of the eight is one branch, with its own flag and state. -/
theorem branchesTestOneFlag : Obligations.BranchesTestOneFlag := by
  intro op1 st
  simp only [List.forall_mem_cons]
  exact ⟨⟨⟨rfl, rfl⟩, branch_by_flag rfl st⟩, ⟨⟨rfl, rfl⟩, branch_by_flag rfl st⟩,
    ⟨⟨rfl, rfl⟩, branch_by_flag rfl st⟩, ⟨⟨rfl, rfl⟩, branch_by_flag rfl st⟩,
    ⟨⟨rfl, rfl⟩, branch_by_flag rfl st⟩, ⟨⟨rfl, rfl⟩, branch_by_flag rfl st⟩,
    ⟨⟨rfl, rfl⟩, branch_by_flag rfl st⟩, ⟨⟨rfl, rfl⟩, branch_by_flag rfl st⟩, List.forall_mem_nil _⟩

end

section
/-! SUPPORT. The operations of 46_stack_flags_system.md: one byte pushed (R220, R221), the three bytes a trap pushes and
RTI pops (R235 to R237; 60_exceptions.md R276, R280), and the slots of the no-operations (47_undocumented.md R254,
R255). -/

namespace Sys2Proof.Machine

theorem storesByte_push (v : Byte) (st : State) : StoresByte st (push v st) (stackAddr st.s) v :=
  fun b => Memory.read_write st.mem (stackAddr st.s) b v

/-! ### The three bytes of a trap -/

theorem stackAddr_sub_two_ne (s : Byte) : stackAddr (s - 2) ≠ stackAddr s :=
  fun h => absurd (sub_eq_self.mp (stackAddr_inj.mp h)) (by decide)

theorem stackAddr_sub_two_ne_sub_one (s : Byte) : stackAddr (s - 2) ≠ stackAddr (s - 1) :=
  fun h => absurd (sub_right_injective (stackAddr_inj.mp h)) (by decide)

/-- A word pushed and then a byte: the byte lies at a third location, even where S wraps. -/
theorem storesThree_push_pushWord (w : Word) (v : Byte) (st : State) :
    StoresThree st (push v (pushWord w st))
      (stackAddr st.s) (hi w) (stackAddr (st.s - 1)) (lo w) (stackAddr (st.s - 2)) v := by
  have hthird : (pushWord w st).s = st.s - 2 := BitVec.sub_sub st.s 1 1
  intro b
  rw [storesByte_push v (pushWord w st) b, storesTwo_pushWord w st b, hthird]
  by_cases hb : b = stackAddr (st.s - 2)
  case pos => simp only [hb, if_true, if_neg (stackAddr_sub_two_ne st.s), if_neg (stackAddr_sub_two_ne_sub_one st.s)]
  case neg => simp only [if_neg hb]

theorem takeTrap_mem (ret : Word) (b : Bool) (vector : Word) (st : State) :
    (takeTrap ret b vector st).mem = (push (st.p.byte b) (pushWord ret st)).mem := by
  simp only [takeTrap_eq, pushWord_eq, push_eq]

theorem storesThree_takeTrap (ret : Word) (b : Bool) (vector : Word) (st : State) :
    StoresThree st (takeTrap ret b vector st)
      (stackAddr st.s) (hi ret) (stackAddr (st.s - 1)) (lo ret) (stackAddr (st.s - 2)) (st.p.byte b) := by
  simpa only [StoresThree, takeTrap_mem] using storesThree_push_pushWord ret (st.p.byte b) st

/-- A trap writes memory, S, I and PC, and PC comes from the vector as memory stands after the pushes. -/
theorem takeTrap_frame (ret : Word) (b : Bool) (vector : Word) (st : State) :
    takeTrap ret b vector st = { st with
      mem := (takeTrap ret b vector st).mem
      s := st.s - 3
      p := { st.p with i := true }
      pc := (takeTrap ret b vector st).mem.read16 vector } := by
  have hs : st.s - 1 - 1 - 1 = st.s - 3 := by rw [BitVec.sub_sub, BitVec.sub_sub]; rfl
  simp only [takeTrap_eq, hs]

theorem interruptEntry_mem (k : Interrupt) (st : State) :
    (interruptEntry k st).mem = (takeTrap st.pc false k.vector st).mem := by cases k <;> rfl

theorem interruptEntry_s (k : Interrupt) (st : State) : (interruptEntry k st).s = st.s - 3 := by
  have hs : (interruptEntry k st).s = (takeTrap st.pc false k.vector st).s := by cases k <;> rfl
  rw [hs, takeTrap_frame]

theorem storesThree_interruptEntry (k : Interrupt) (st : State) :
    StoresThree st (interruptEntry k st)
      (stackAddr st.s) (hi st.pc) (stackAddr (st.s - 1)) (lo st.pc) (stackAddr (st.s - 2)) (st.p.byte false) := by
  simpa only [StoresThree, interruptEntry_mem] using storesThree_takeTrap st.pc false k.vector st

/-! ### Returning from a trap -/

theorem exec_rti (st : State) :
    exec .rti st = .next { st with
      s := st.s + 3
      p := Status.ofByte (st.mem.read (stackAddr (st.s + 1)))
      pc := word (st.mem.read (stackAddr (st.s + 3))) (st.mem.read (stackAddr (st.s + 2))) } := by
  have htwo : st.s + 1 + 1 = st.s + 2 := BitVec.add_assoc st.s 1 1
  have hthree : st.s + 2 + 1 = st.s + 3 := BitVec.add_assoc st.s 2 1
  calc exec .rti st = .next (returnFromTrap st) := rfl
    _ = _ := by rw [returnFromTrap_eq, htwo, hthree]

/-- RTI with a trap's three bytes above S gives back the P and the return address they hold. -/
theorem exec_rti_of_pushed {st t : State} {ret pc : Word} {b : Bool}
    (h : StoresThree st t
      (stackAddr st.s) (hi ret) (stackAddr (st.s - 1)) (lo ret) (stackAddr (st.s - 2)) (st.p.byte b))
    (hs : t.s = st.s - 3) :
    exec .rti { t with pc := pc } = .next { t with s := st.s, p := st.p, pc := ret } := by
  have hfirst : t.s + 3 = st.s := by rw [hs, BitVec.sub_add_cancel]
  have hsecond : t.s + 2 = st.s - 1 := by rw [← hfirst, add_sub_assoc]; rfl
  have hthird : t.s + 1 = st.s - 2 := by rw [← hfirst, add_sub_assoc]; rfl
  have hhigh : t.mem.read (stackAddr st.s) = hi ret := (h _).trans (if_pos rfl)
  have hlow : t.mem.read (stackAddr (st.s - 1)) = lo ret := by
    rw [h, if_neg (stackAddr_sub_one_ne st.s), if_pos rfl]
  have hstatus : t.mem.read (stackAddr (st.s - 2)) = st.p.byte b := by
    rw [h, if_neg (stackAddr_sub_two_ne st.s), if_neg (stackAddr_sub_two_ne_sub_one st.s), if_pos rfl]
  rw [exec_rti]
  simp only [hfirst, hsecond, hthird, hhigh, hlow, hstatus, word_hi_lo, Status.ofByte_byte]

theorem exec_rti_takeTrap (ret : Word) (b : Bool) (vector pc : Word) (st : State) :
    exec .rti { takeTrap ret b vector st with pc := pc } =
      .next { st with mem := (takeTrap ret b vector st).mem, pc := ret } :=
  (exec_rti_of_pushed (storesThree_takeTrap ret b vector st) (congrArg State.s (takeTrap_frame ret b vector st))).trans
    (by simp only [takeTrap_eq])

theorem exec_rti_interruptEntry (k : Interrupt) (pc : Word) (st : State) :
    exec .rti { interruptEntry k st with pc := pc } =
      .next (clearPending k { st with mem := (interruptEntry k st).mem }) := by
  rw [exec_rti_of_pushed (storesThree_interruptEntry k st) (interruptEntry_s k st)]
  cases k <;> simp only [interruptEntry_eq, clearPending, takeTrap_eq]

/-! ### The no-operations -/

theorem timed_dop {slot : Byte} {n : Nat} (h : slot ∈ dopSlots ∧ nominalCycles slot = n) (op1 : Byte) :
    Timed (.dop slot op1) slot n :=
  ⟨if_pos (List.contains_iff_mem.mpr h.1), h.2⟩

theorem timed_top {slot : Byte} {n : Nat} (h : slot ∈ topSlots ∧ nominalCycles slot = n) (op1 op2 : Byte) :
    Timed (.top slot op1 op2) slot n :=
  ⟨if_pos (List.contains_iff_mem.mpr h.1), h.2⟩

end Sys2Proof.Machine
end

section
/-! SUPPORT. The statements of 46_stack_flags_system.md, settled. -/

open Sys2Proof Sys2Proof.Machine

/-- Settles O30: each is one push, and the byte PHP leaves on the stack is the image of P with B clear. -/
theorem pushesStoreOneByte : Obligations.PushesStoreOneByte := by
  refine ⟨⟨rfl, rfl⟩, ⟨rfl, rfl⟩, fun st => ⟨⟨push st.a st, rfl, rfl, storesByte_push st.a st⟩, ?_⟩⟩
  have hpushed := storesByte_push (st.p.byte false) st
  have hread : (push (st.p.byte false) st).mem.read (stackAddr st.s) = st.p.byte false := (hpushed _).trans (if_pos rfl)
  obtain ⟨-, -, hbit5, hbit4, -⟩ := st.p.byte_bits false
  exact ⟨push (st.p.byte false) st, rfl, rfl, hpushed, (congrArg (BitVec.getLsbD · 5) hread).trans hbit5,
    (congrArg (BitVec.getLsbD · 4) hread).trans hbit4⟩

/-- Settles O34: one trap, from the byte after BRK's padding byte through the vector it shares with IRQ. -/
theorem brkTakesTheTrap : Obligations.BrkTakesTheTrap :=
  ⟨⟨rfl, rfl⟩, fun st => ⟨takeTrap (st.pc + 1) true irqVector st, rfl, storesThree_takeTrap (st.pc + 1) true irqVector st,
    takeTrap_frame (st.pc + 1) true irqVector st⟩⟩

/-- Settles O36: what RTI pops is what the trap has pushed, whichever trap it was. -/
theorem rtiUndoesTheEntry : Obligations.RtiUndoesTheEntry :=
  fun st pc => ⟨⟨takeTrap (st.pc + 1) true irqVector st, rfl, exec_rti_takeTrap (st.pc + 1) true irqVector pc st⟩,
    fun k => exec_rti_interruptEntry k pc st⟩

/-- Settles O31: each pops one byte; PLA ends in `SetNZ` of it, PLP takes six of its bits. -/
theorem pullsReadOneByte : Obligations.PullsReadOneByte :=
  ⟨⟨rfl, rfl⟩, ⟨rfl, rfl⟩, fun st => ⟨next_setNZ (popByte st) ((popMove st).setA (popByte st)), rfl⟩⟩

/-- Settles O33: each flag instruction is one write of one flag; the no-operations have no operand to access, so none
stalls, and the slots of one mode share their count. -/
theorem flagInstructionsAndNoOperations : Obligations.FlagInstructionsAndNoOperations := by
  refine ⟨?flags, fun op1 slot => ⟨fun h => timed_dop ?two op1, fun h => timed_dop ?three op1,
    fun h => timed_dop ?four op1⟩, fun op1 op2 slot h => timed_top ?top op1 op2, fun st => ?meaning⟩
  case flags =>
    simp only [List.forall_mem_cons]
    exact ⟨⟨rfl, rfl⟩, ⟨rfl, rfl⟩, ⟨rfl, rfl⟩, ⟨rfl, rfl⟩, ⟨rfl, rfl⟩, ⟨rfl, rfl⟩, ⟨rfl, rfl⟩, ⟨rfl, rfl⟩,
      List.forall_mem_nil _⟩
  case two | three | four | top =>
    revert slot
    exact List.forall_iff_forall_mem.mp (by decide)
  case meaning =>
    exact ⟨rfl, rfl, rfl, rfl, rfl, rfl, rfl, rfl,
      fun slot op1 => ⟨rfl, stallsNeeded_of_neither rfl rfl st⟩,
      fun slot op1 op2 => ⟨rfl, stallsNeeded_of_neither rfl rfl st⟩⟩

/-- Settles O35: three pops, the first into P, the two others into PC. -/
theorem rtiRestoresPThenPC : Obligations.RtiRestoresPThenPC := ⟨⟨rfl, rfl⟩, exec_rti⟩

end

section
/-! SUPPORT. The operations of 47_undocumented.md: a combination is its memory operation and its companion on A with the
new byte (R240), and the bits that the immediate combinations copy to flags, as numbers. The tables by mode of
70_reset_and_hazards.md R310 follow from those of 30_encoding.md R64. -/

namespace Sys2Proof.Machine

/-! ### Combinations -/

/-- An instruction whose whole operation is a shift of a memory byte, then a bitwise companion of A with the new byte
and `SetNZ` of A: the shift's own write to the flags is C alone. -/
theorem exec_of_shiftMem_setNZ {i : Instr} {m : MemMode} {st : State} (f : Byte → Bool → ShiftResult)
    (g : Byte → Byte → Byte)
    (h : exec i st = .next (((shiftMem f m st).2.setA (g st.a (shiftMem f m st).1)).setNZ
      (g st.a (shiftMem f m st).1))) :
    ∃ t, let sh := f (st.mem.read (address m st)) st.p.c
      let r := g st.a sh.r
      exec i st = .next t ∧ StoresByte st t (address m st) sh.r ∧
      t = { st with
        mem := t.mem, a := r
        p := { st.p with n := decide (128 ≤ r.toNat), z := decide (r.toNat = 0), c := sh.c } } :=
  ⟨_, h, storesByte_store m _ st, setNZ_toNat _ _⟩

/-! ### Bits of a byte as numbers -/

theorem bit7_eq_decide (v : Byte) : bit v 7 = decide (128 ≤ v.toNat) :=
  Bool.eq_iff_iff.2 ((bit7_iff_le_toNat v).trans decide_eq_true_iff.symm)

theorem bit_eq_decide (v : Byte) (i : Nat) : bit v i = decide (v.toNat / 2 ^ i % 2 = 1) :=
  Nat.testBit_eq_decide_div_mod_eq

theorem bit_xor_bit (v : Byte) (i j : Nat) :
    (bit v i ^^ bit v j) = decide (v.toNat / 2 ^ i % 2 ≠ v.toNat / 2 ^ j % 2) := by
  rw [← bit_toNat, ← bit_toNat]
  cases bit v i <;> cases bit v j <;> rfl

theorem lsrByte_r_toNat (v : Byte) (c : Bool) : (lsrByte v c).r.toNat = v.toNat / 2 := ushiftRight_one_toNat v

/-- Bit 7 of a byte rotated right is the carry that entered. -/
theorem bit7_rorByte (v : Byte) (c : Bool) : bit (rorByte v c).r 7 = c := by
  cases c <;> simp [bit, rorByte]

/-! ### Nominal cycles -/

theorem lookup_map_snd {β γ : Type} (g : β → γ) (k : Mode) (table : List (Mode × β)) :
    (table.map (Prod.map id g)).lookup k = (table.lookup k).map g := by
  induction table with
  | nil => rfl
  | cons e rest ih =>
    obtain ⟨k', v⟩ := e
    simp only [List.map_cons, Prod.map_apply, id, List.lookup_cons, ih]
    cases k == k' <;> rfl

/-- The counts by mode are those of the opcode bytes by mode. -/
theorem takes_of_encodes {α : Type} {f : α → Instr} {mode : α → Mode} {table : List (Mode × Byte)}
    {counts : List (Mode × Nat)} (h : Encodes f mode table)
    (hc : table.map (Prod.map id nominalCycles) = counts) : Takes f mode counts :=
  fun m => by rw [h m, ← hc, lookup_map_snd]

theorem Timed.map_nominalCycles {i : Instr} {op : Byte} {n : Nat} (h : Timed i op n) :
    i.opcode.map nominalCycles = some n := by
  obtain ⟨hop, hn⟩ := h
  rw [hop, Option.map_some, hn]

end Sys2Proof.Machine
end

section
/-! SUPPORT. The statements of 47_undocumented.md, settled. -/

open Sys2Proof Sys2Proof.Machine

/-- Settles O37: each of the three is one shift in memory and one bitwise companion on A. -/
theorem shiftCombinations : Obligations.ShiftCombinations := by
  refine ⟨encodes_of_memRow fun _ => rfl, encodes_of_memRow fun _ => rfl, encodes_of_memRow fun _ => rfl,
    fun m st => List.forall_iff_forall_mem.mp ⟨?slo, ?rla, ?sre⟩⟩
  case slo => exact exec_of_shiftMem_setNZ aslByte (· ||| ·) rfl
  case rla => exact exec_of_shiftMem_setNZ rolByte (· &&& ·) rfl
  case sre => exact exec_of_shiftMem_setNZ lsrByte (· ^^^ ·) rfl

/-- Settles O38: each of the three stores the new byte, then adds, compares or subtracts it; RRA's sum sees the carry
that its rotation has just written, ISC's difference the old one. -/
theorem arithmeticCombinations : Obligations.ArithmeticCombinations :=
  ⟨encodes_of_memRow fun _ => rfl, encodes_of_memRow fun _ => rfl, encodes_of_memRow fun _ => rfl, fun m st =>
    ⟨⟨_, rfl, storesByte_store m _ st, addToA_eq _ (shiftMem rorByte m st).2⟩,
      ⟨_, _, rfl, sub_one_toNat _, storesByte_store m _ st, compared_compareByte st.a _ (store m _ st)⟩,
      ⟨_, _, rfl, add_one_toNat _, storesByte_store m _ st, subFromA_eq _ (store m _ st)⟩⟩⟩

/-- Settles O39: each of the four writes its byte to A, with N and Z from it; ANC and ALR copy a bit of `A & op1` to C,
ARR two bits of the result to C and V, and its N is the carry rotated in. -/
theorem immediateCombinations : Obligations.ImmediateCombinations := by
  refine ⟨fun _ => ⟨rfl, rfl, rfl, rfl, rfl⟩, ?_⟩
  intro op1 st t
  refine ⟨fun slot => ?anc, ?alr, ?arr, ?xaa⟩
  case anc =>
    have meaning : exec (.anc slot op1) st = .next (((st.setA t).setNZ t).setFlag .c (bit t 7)) := rfl
    rw [meaning, setNZ_toNat, bit7_eq_decide]
    rfl
  case alr =>
    let r := (lsrByte t st.p.c).r
    have meaning : exec (.alr op1) st = .next (((st.setA r).setFlag .c (bit t 0)).setNZ r) := rfl
    have hr : r.toNat = t.toNat / 2 := lsrByte_r_toNat t st.p.c
    have hn : decide (128 ≤ r.toNat) = false := decide_eq_false (by have ht := t.isLt; omega)
    refine ⟨r, hr, ?_⟩
    rw [meaning, next_setNZ_toNat, hn, bit_eq_decide, pow_zero, Nat.div_one]
    rfl
  case arr =>
    let r := (rorByte t st.p.c).r
    have meaning : exec (.arr op1) st =
        .next ((((st.setA r).setNZ r).setFlag .c (bit r 6)).setFlag .v (bit r 6 ^^ bit r 5)) := rfl
    have hr : r.toNat = t.toNat / 2 + 128 * st.p.c.toNat := by
      rw [rorByte_r_toNat, lsrByte_r_toNat]
    have hn : decide (128 ≤ r.toNat) = st.p.c := (bit7_eq_decide r).symm.trans (bit7_rorByte t st.p.c)
    refine ⟨r, hr, ?_⟩
    rw [meaning, setNZ_toNat, hn, bit_xor_bit, bit_eq_decide]
    rfl
  case xaa =>
    exact ⟨st.x &&& op1, fun _ => BitVec.getLsbD_and, next_setNZ_toNat _ (st.setA (st.x &&& op1))⟩

/-- Settles O58: the opcode bytes of every mnemonic by mode are settled with its family, and the count of a byte is read
off the one table. -/
theorem nominalCyclesByMnemonicAndMode : Obligations.NominalCyclesByMnemonicAndMode := by
  obtain ⟨lda, ldx, ldy, lax, -⟩ := loadsWriteTheRegisterAndNZ
  obtain ⟨sta, stx, sty, sax, -⟩ := storesWriteExactlyOneByte
  obtain ⟨adc, sbc, -⟩ := addAndSubtractWriteAAndFourFlags
  obtain ⟨cmp, cpx, cpy, -⟩ := comparesWriteOnlyNZC
  obtain ⟨inc, dec, -⟩ := incrementAndDecrementMemory
  obtain ⟨and, ora, eor, bit, -⟩ := logicAndBitTest
  obtain ⟨asl, lsr, rol, ror, -⟩ := shiftsAndRotates
  obtain ⟨slo, rla, sre, -⟩ := shiftCombinations
  obtain ⟨rra, dcp, isc, -⟩ := arithmeticCombinations
  obtain ⟨-, dop, top, -⟩ := flagInstructionsAndNoOperations
  refine ⟨List.forall_iff_forall_mem.mp ⟨takes_of_encodes lda rfl, takes_of_encodes adc rfl, takes_of_encodes sbc rfl,
      takes_of_encodes cmp rfl, takes_of_encodes and rfl, takes_of_encodes ora rfl, takes_of_encodes eor rfl⟩,
    takes_of_encodes ldx rfl, takes_of_encodes ldy rfl,
    List.forall_iff_forall_mem.mp ⟨takes_of_encodes cpx rfl, takes_of_encodes cpy rfl⟩,
    takes_of_encodes sta rfl, takes_of_encodes stx rfl, takes_of_encodes sty rfl, takes_of_encodes bit rfl,
    List.forall_iff_forall_mem.mp ⟨takes_of_encodes inc rfl, takes_of_encodes dec rfl⟩,
    List.forall_iff_forall_mem.mp ⟨takes_of_encodes asl rfl, takes_of_encodes lsr rfl, takes_of_encodes rol rfl,
      takes_of_encodes ror rfl⟩,
    List.forall_iff_forall_mem.mp ⟨takes_of_encodes slo rfl, takes_of_encodes rla rfl, takes_of_encodes sre rfl,
      takes_of_encodes rra rfl, takes_of_encodes dcp rfl, takes_of_encodes isc rfl⟩,
    takes_of_encodes lax rfl, takes_of_encodes sax rfl, ?twoCycles, ?stack,
    fun op1 => List.forall_iff_forall_mem.mp ⟨rfl, rfl, rfl, rfl, rfl, rfl, rfl, rfl, rfl, rfl, rfl, rfl⟩,
    fun op1 op2 => List.forall_iff_forall_mem.mp ⟨rfl, rfl, rfl⟩, fun slot op1 op2 => ?slots⟩
  case twoCycles | stack => decide
  case slots =>
    obtain ⟨dopTwo, dopThree, dopFour⟩ := dop op1 slot
    have anc : ∀ slot ∈ ([0x0B, 0x2B] : List Byte), (Instr.anc slot op1).opcode.map nominalCycles = some 2 :=
      List.forall_iff_forall_mem.mp ⟨rfl, rfl⟩
    exact ⟨anc slot, fun h => (dopTwo h).map_nominalCycles, fun h => (dopThree h).map_nominalCycles,
      fun h => (dopFour h).map_nominalCycles, fun h => (top op1 op2 slot h).map_nominalCycles⟩

end

section
/-! SUPPORT. The frame of an interrupt entry (60_exceptions.md R276): a trap's, with the serviced request's pending bit
cleared. -/

namespace Sys2Proof.Machine

theorem clearPending_eq (k : Interrupt) (st : State) : clearPending k st = { st with
    nmiPending := decide (k ≠ .nmi) && st.nmiPending
    irqPending := decide (k ≠ .irq) && st.irqPending } := by
  cases k <;> rfl

/-- An interrupt entry writes what a trap writes and its own pending bit, and PC comes from its vector as memory stands
after the pushes. -/
theorem interruptEntry_frame (k : Interrupt) (st : State) :
    interruptEntry k st = { st with
      mem := (interruptEntry k st).mem
      s := st.s - 3
      p := { st.p with i := true }
      pc := (interruptEntry k st).mem.read16 k.vector
      nmiPending := decide (k ≠ .nmi) && st.nmiPending
      irqPending := decide (k ≠ .irq) && st.irqPending } := by
  rw [interruptEntry_mem, interruptEntry_eq, clearPending_eq, takeTrap_frame]

end Sys2Proof.Machine
end

section
/-! SUPPORT. The statements of 60_exceptions.md and 70_reset_and_hazards.md about an interrupt's entry and the reset
action, settled. -/

open Sys2Proof Sys2Proof.Machine

/-- Settles O40: an entry stores the trap's three bytes, and its frame is the trap's but for its own pending bit. -/
theorem interruptEntryAction : Obligations.InterruptEntryAction := by
  intro k st
  have frame := interruptEntry_frame k st
  exact ⟨storesThree_interruptEntry k st, by cases k <;> exact frame⟩

/-- Settles O46: the host's reset is one record update, which looks at neither the sequencer nor the fault, with PC the
word at the reset vector. -/
theorem resetAction : Obligations.ResetAction := fun _ _ => rfl

end
